-- ==== Sys2Proof/Word.lean ====
section
/-! DEFINITION. The value types of the block: the 64-bit word, the byte, the command word, and the shape of TABLE. -/

namespace Sys2Proof

/-- A 64-bit unsigned value: ACC, a TABLE entry, a response (R8, R13). -/
abbrev Word := BitVec 64

/-- One byte of the input stream, the operand of UPDATE (R8). -/
abbrev Byte := BitVec 8

/-- One command word `w` (R55). -/
abbrev CommandWord := BitVec 16

/-- One half of a response (R103). -/
abbrev HalfWord := BitVec 32

/-- TABLE: 256 entries of 64 bits, indexed by an 8-bit value (R23, R40). -/
abbrev Table := Vector Word 256

/-- The table whose entry `i` is `f i`. -/
def Table.ofEntries (f : Byte → Word) : Table :=
  ⟨⟨(List.range 256).map fun i => f (BitVec.ofNat 8 i)⟩, by simp⟩

/-- A text as its Unicode code points in order (host side: R63, R67, R109, R116). -/
abbrev Text := List Char

end Sys2Proof
end

