-- ==== Sys2Proof/Syntax.lean ====
section
/-! DEFINITION. The commands of CRC64-CMD version 1 (R3), one constructor per row of spec/opcode_table.json. -/

namespace Sys2Proof

/-- A command of the block. The block has no other operand than UPDATE's byte (R58). -/
inductive Instr where
  /-- CONSTRUCT: build TABLE and load ACC (R75). -/
  | construct
  /-- UPDATE: fold the byte `b` into ACC (R85). -/
  | update (b : Byte)
  /-- READ: emit ACC as a response (R100). -/
  | read
  deriving DecidableEq, Repr

end Sys2Proof
end

