-- ==== Sys2Proof/Syntax/Assembly.lean ====
section
/-! DEFINITION. One line of assembly as data (R63 to R67): the three commands and the four pseudo-instructions. Operands are
plain numbers here, so that a value outside its range can be written and is refused by WellFormed. -/

namespace Sys2Proof

/-- A line of assembly that holds a command or a pseudo-instruction. -/
inductive AsmLine where
  /-- `construct` (R63). -/
  | construct
  /-- `update <byte>` (R63). -/
  | update (byte : Nat)
  /-- `read` (R63). -/
  | read
  /-- `update.u64le <v>` (R64). -/
  | updateU64le (v : Nat)
  /-- `update.u32le <v>` (R65). -/
  | updateU32le (v : Nat)
  /-- `update.bytes <b0, …>` (R66). -/
  | updateBytes (bytes : List Nat)
  /-- `update.cstr "<text>"` (R67). -/
  | updateCstr (text : Text)
  deriving DecidableEq, Repr

end Sys2Proof
end

