-- ==== Sys2Proof/WellFormed.lean ====
section
/-! DEFINITION. Which commands and which lines of assembly are well formed. -/

namespace Sys2Proof

/-- Every command is well formed: CONSTRUCT and READ have no operand, and every value 0x00 to 0xFF of UPDATE's byte is legal
(R58). The words that are no command are refused by `decode`, not here. -/
def Instr.wellFormed : Instr → Bool
  | .construct => true
  | .update _ => true
  | .read => true

/-- A byte operand written as a number is 0 to 255 (R63: "anything else is an assembly error"). -/
def isByteOperand (n : Nat) : Bool := decide (n < 2 ^ 8)

/-- The operand ranges of R63 to R67: bytes are 0 to 255, `update.u64le` takes a 64-bit unsigned value, `update.u32le` takes
any unsigned value, and `update.cstr` takes any text. -/
def AsmLine.wellFormed : AsmLine → Bool
  | .construct => true
  | .update byte => isByteOperand byte
  | .read => true
  | .updateU64le v => decide (v < 2 ^ 64)
  | .updateU32le _ => true
  | .updateBytes bytes => bytes.all isByteOperand
  | .updateCstr _ => true

end Sys2Proof
end

