-- ==== Sys2Proof/Decode.lean ====
section
/-! DEFINITION. The fields of a command word, the decoder (total over all 2^16 words) and the encoder. -/

namespace Sys2Proof

/-- OP, bits [15:12] (R55). -/
def opField (w : CommandWord) : BitVec 4 := w.extractLsb' 12 4

/-- RSV, bits [11:8] (R55). -/
def rsvField (w : CommandWord) : BitVec 4 := w.extractLsb' 8 4

/-- DATA, bits [7:0] (R55, R58). -/
def dataField (w : CommandWord) : Byte := w.extractLsb' 0 8

/-- Why a word is Reserved. All three raise the one cause ReservedCommand (R132). -/
inductive ReservedReason where
  /-- RSV is not 0 (R57). -/
  | rsvNotZero
  /-- DATA is not 0 in a word whose OP is that of CONSTRUCT or READ (R58). -/
  | dataNotZero
  /-- OP is 0x0 or 0x4 to 0xF (R56). -/
  | reservedOp
  deriving DecidableEq, Repr

/-- The decoder of R59: a command, or Reserved with the reason's name. -/
def decode (w : CommandWord) : Except ReservedReason Instr :=
  if rsvField w ≠ 0 then .error .rsvNotZero
  else if opField w = 0x1 then
    if dataField w = 0 then .ok .construct else .error .dataNotZero
  else if opField w = 0x2 then .ok (.update (dataField w))
  else if opField w = 0x3 then
    if dataField w = 0 then .ok .read else .error .dataNotZero
  else .error .reservedOp

/-- Does R59 map the word to Reserved? -/
def isReserved (w : CommandWord) : Bool :=
  match decode w with
  | .ok _ => false
  | .error _ => true

/-- The word of a command (R63; the match values of R59). -/
def encode : Instr → CommandWord
  | .construct => 0x1000
  | .update b => 0x2000 ||| b.setWidth 16
  | .read => 0x3000

/-- The command word in the low `nbits` bits of `w`; every command is one 16-bit word (R61), and bits above `nbits` are 0. -/
def tableWord (nbits w : Nat) : CommandWord := BitVec.ofNat 16 (w % 2 ^ nbits)

/-- What `decode` reads from a word numbered as spec/opcode_table.json numbers its bits. -/
def decodeTableWord (nbits w : Nat) : Option Instr :=
  (decode (tableWord nbits w)).toOption

end Sys2Proof
end

