-- ==== Sys2Proof/Config.lean ====
section
/-! DEFINITION. What an instance or a host fixes (P_POLY, P_INIT, the host's open parameters), and the free values:
what ACC and TABLE hold after a hardware reset. -/

namespace Sys2Proof

/-- The instance parameters of the block, fixed when an instance is built (R9, R10, R32; D2, D3). -/
structure Params where
  /-- P_POLY, the generator polynomial (R9). -/
  pPoly : Word
  /-- P_INIT, what CONSTRUCT loads into ACC (R10). -/
  pInit : Word
  deriving DecidableEq, Repr

/-- The defaults of R9 and R10, which an instance that computes pydvdid fingerprints takes. -/
def Params.pydvdid : Params :=
  { pPoly := 0x92c64265d32139a4, pInit := 0xFFFFFFFFFFFFFFFF }

/-- What ACC holds after the reset numbered `n`. R31 gives it no value and forbids picking one, so it has no body.
DESIGN CHOICE, unsafe: notes/assumptions/1.md. -/
opaque Config.accAfterReset : Nat → Word

/-- What TABLE's entries hold after the reset numbered `n`. R31 gives them no value and forbids picking one, so it has no
body. DESIGN CHOICE, unsafe: notes/assumptions/1.md. -/
opaque Config.tableAfterReset : Nat → Byte → Word

/-- The host's open parameters (R109, R117; D18): the names that the source gives by role only. -/
structure HostParams where
  /-- HOST_METADATA_DIR (R109). -/
  metadataDir : Text
  /-- One of HOST_DESIGNATED_NAMES (R117). -/
  designatedFirst : Text
  /-- The other of HOST_DESIGNATED_NAMES (R117). -/
  designatedSecond : Text
  deriving DecidableEq, Repr

end Sys2Proof
end

