-- ==== Sys2Proof/Machine/State.lean ====
section
/-! DEFINITION. The state of one instance of the block (R20), the channels that a model of it keeps (R24, R29), why a step
can stop, and the state after hardware reset (R31). -/

namespace Sys2Proof.Machine

/-- STATUS.CAUSE (R25, R131). Code 3 is never produced, so no constructor stands for it (I5); `Cause.ofCode` refuses it. -/
inductive Cause where
  /-- Code 0: no fault. -/
  | noFault
  /-- Code 1: a word that `decode` maps to Reserved was accepted (R132). -/
  | reservedCommand
  /-- Code 2: UPDATE or READ was accepted before CONSTRUCT (R133). -/
  | notConstructed
  deriving DecidableEq, Repr

/-- One move of the host at the block's ports (R29). -/
inductive HostMove where
  /-- cmd_valid = 1 with cmd_word = `w`, held until the block accepts it. -/
  | command (w : CommandWord)
  /-- rsp_ready = 1: the host takes the oldest response, if there is one. -/
  | takeResponse
  /-- rst = 1, and then released (R150). -/
  | reset
  deriving DecidableEq, Repr

/-- Why a step answers no next state. -/
inductive Fault where
  /-- The block is halted by the recorded fault and the host makes no move that a halted block answers. Raised by `step`, and
  by each command's meaning, when STATUS.FAULT = 1 (R136; I8 "stuck"). It is the spec's own stop, so it is safe. -/
  | halted (cause : Cause)
  deriving DecidableEq, Repr

/-- Why an instruction has no meaning. -/
inductive Refusal where
  /-- The instruction is not modelled. Raised by nothing in this model: every command has its meaning. Safe. -/
  | notModelled (mnemonic : String)
  deriving DecidableEq, Repr

/-- One instance of the block with its channels. -/
structure State where
  /-- P_POLY and P_INIT of this instance: configuration, which no step changes (R9, R10, R32). -/
  params : Params
  /-- ACC, 64 bits (R22). -/
  acc : Word
  /-- TABLE[0..255], 64 bits each (R23). -/
  table : Table
  /-- STATUS.CONSTRUCTED, 1 bit (R25, R26). -/
  constructed : Bool
  /-- STATUS.FAULT, 1 bit (R25, R27). -/
  fault : Bool
  /-- STATUS.CAUSE, 2 bits (R25, R27). -/
  cause : Cause
  /-- FAULT_CMD, 16 bits (R28). -/
  faultCmd : CommandWord
  /-- The response stream: emitted and not yet delivered, oldest first (R20, R29, R100). -/
  responses : List Word
  /-- The host's output sequence: the responses delivered to it, oldest first (R29). Model bookkeeping. -/
  delivered : List Word
  /-- The block's input sequence: the command words accepted since the last hardware reset, oldest first (R24, R29). Model
  bookkeeping; its length is the index of R24. -/
  accepted : List CommandWord
  /-- The host's moves that are still to come, in order (R29). Model bookkeeping. -/
  inbox : List HostMove
  /-- How many hardware resets this run has seen: the counter that the free values of R31 are taken at. The MODEL's own field,
  no state of the spec's. -/
  resets : Nat
  deriving DecidableEq, Repr

/-- The instance with the default parameters right after hardware reset, before the host has moved (R31, R150). -/
def State.reset : State :=
  { params := Params.pydvdid
    acc := Config.accAfterReset 0
    table := Table.ofEntries (Config.tableAfterReset 0)
    constructed := false
    fault := false
    cause := .noFault
    faultCmd := 0x0000
    responses := []
    delivered := []
    accepted := []
    inbox := []
    resets := 0 }

end Sys2Proof.Machine
end

