-- ==== Sys2Proof/Machine/Operands.lean ====
section
/-! DEFINITION. The operand forms: the TABLE index of UPDATE, a TABLE read at it, the halves of a response, and the little-endian
bytes of a number. -/

namespace Sys2Proof.Machine

/-- The index `(ACC & 0xFF) XOR b` (R41, R86), an 8-bit value, so that it is always in range. -/
def tableIndex (acc : Word) (b : Byte) : Byte := acc.setWidth 8 ^^^ b

/-- TABLE[i] (R14, R40). -/
def readTable (t : Table) (i : Byte) : Word := t[i.toNat]

/-- HIGH(r) = r[63:32] (R103). -/
def responseHigh (r : Word) : HalfWord := r.extractLsb' 32 32

/-- LOW(r) = r[31:0] (R103). -/
def responseLow (r : Word) : HalfWord := r.extractLsb' 0 32

/-- The low `count` bytes of `v`, lowest first; bits above them are dropped (R64, R65). -/
def leBytes : (count v : Nat) → List Byte
  | 0, _ => []
  | count + 1, v => BitVec.ofNat 8 v :: leBytes count (v / 2 ^ 8)

end Sys2Proof.Machine
end

