-- ==== Sys2Proof/Machine/Flags.lean ====
section
/-! DEFINITION. The status port and the other output ports, computed from the state (R25, R29). The fold has no flags and no
condition codes (R87). -/

namespace Sys2Proof.Machine

/-- The code of a cause in STATUS[3:2] (R25, R131). -/
def Cause.code : Cause → BitVec 2
  | .noFault => 0
  | .reservedCommand => 1
  | .notConstructed => 2

/-- The cause a code stands for. Code 3 is reserved and never produced; it is refused (R25; I5). -/
def Cause.ofCode (c : BitVec 2) : Option Cause :=
  if c = 0 then some .noFault
  else if c = 1 then some .reservedCommand
  else if c = 2 then some .notConstructed
  else none

/-- STATUS as the status port drives it: bit 0 CONSTRUCTED, bit 1 FAULT, bits [3:2] CAUSE, bits [7:4] 0 (R25). -/
def State.statusPort (s : State) : BitVec 8 :=
  (0 : BitVec 4) ++ s.cause.code ++ BitVec.ofBool s.fault ++ BitVec.ofBool s.constructed

/-- FAULT_CMD as the fault_cmd port drives it (R28). -/
def State.faultCmdPort (s : State) : BitVec 16 := s.faultCmd

/-- cmd_ready. A halted block holds it at 0 (R136). The waits that R30 and R154 allow an implementation have no place in a model
without time, so it is 1 otherwise. DESIGN CHOICE, unsafe: notes/assumptions/5.md. -/
def State.cmdReady (s : State) : Bool := !s.fault

/-- rsp_valid: rsp_data holds a response (R29). -/
def State.rspValid (s : State) : Bool := !s.responses.isEmpty

/-- rsp_data: the oldest response not yet delivered (R29, R49); it has no value while rsp_valid = 0. -/
def State.rspData (s : State) : Option Word := s.responses.head?

/-- The index of the next command in the program: it starts at 0 and goes up by 1 at each accepted command (R24). -/
def State.position (s : State) : Nat := s.accepted.length

end Sys2Proof.Machine
end

