-- ==== Sys2Proof/Machine/Ops.lean ====
section
/-! DEFINITION. The named operations over the state (R14): reads and writes of ACC, TABLE and STATUS, emitting and delivering
a response, accepting a command, fault entry (R135) and hardware reset (R31, R150), which is the only way out of a fault
(R137). -/

namespace Sys2Proof.Machine

/-- `ACC <- v` (R14). -/
def State.writeAcc (s : State) (v : Word) : State := { s with acc := v }

/-- `TABLE[i] <- T[i]` for every `i` (R14, R75). -/
def State.writeTable (s : State) (t : Table) : State := { s with table := t }

/-- `STATUS.CONSTRUCTED <- 1` (R75). -/
def State.setConstructed (s : State) : State := { s with constructed := true }

/-- `emit Response(v)`: append `v` to the response stream (R14, R100). -/
def State.emitResponse (s : State) (v : Word) : State := { s with responses := s.responses ++ [v] }

/-- The host takes the oldest response: it leaves the response stream and joins the host's output sequence (R29, R49). With
rsp_valid = 0 nothing is delivered. -/
def State.deliverResponse (s : State) : State :=
  { s with responses := s.responses.tail, delivered := s.delivered ++ s.responses.head?.toList }

/-- The host's moves that are still to come. -/
def State.withInbox (s : State) (rest : List HostMove) : State := { s with inbox := rest }

/-- The block accepts the command word `w`: it joins the block's input sequence (R24, R29). -/
def State.accept (s : State) (w : CommandWord) (rest : List HostMove) : State :=
  { s with inbox := rest, accepted := s.accepted ++ [w] }

/-- `raise Fault(cause, w)`: fault entry (R135). ACC, TABLE and STATUS.CONSTRUCTED are unchanged and no response is emitted. -/
def State.raiseFault (s : State) (cause : Cause) (w : CommandWord) : State :=
  { s with fault := true, cause := cause, faultCmd := w }

/-- Hardware reset (R31, R150): the control fields are cleared, ACC and TABLE hold no value that the spec gives (free values),
the responses not yet delivered are discarded, and the next program starts at index 0 (R24). -/
def State.hardwareReset (s : State) : State :=
  { s with
    acc := Config.accAfterReset (s.resets + 1)
    table := Table.ofEntries (Config.tableAfterReset (s.resets + 1))
    constructed := false
    fault := false
    cause := .noFault
    faultCmd := 0x0000
    responses := []
    accepted := []
    resets := s.resets + 1 }

/-- The first line of every command's pseudocode: with STATUS.FAULT = 1 it is not accepted (R75, R85, R100, R136). -/
def whenRunning (s : State) (effect : Host.Outcome State Fault Refusal) : Host.Outcome State Fault Refusal :=
  if s.fault then .fault (.halted s.cause) else effect

/-- The second line of UPDATE's and READ's pseudocode: with STATUS.CONSTRUCTED = 0 the word `w` raises NotConstructed (R133). -/
def whenConstructed (s : State) (w : CommandWord) (effect : Host.Outcome State Fault Refusal) :
    Host.Outcome State Fault Refusal :=
  if s.constructed then effect else .next (s.raiseFault .notConstructed w)

end Sys2Proof.Machine
end

