-- ==== Sys2Proof/Machine/Channel.lean ====
section
/-! DEFINITION. What the block does with the host's next move (R29, R49, R136, R150), given what a command does and what
a hardware reset does: `Step.lean` takes both from this model, `RomTable.lean` from the realisation of R80. -/

namespace Sys2Proof.Machine

/-- What is left for a halted block to answer. -/
inductive HaltedMove where
  /-- No move but commands, which it does not accept (R136). -/
  | stuck
  /-- The host takes a response (R136); the commands offered before stay offered. -/
  | take (rest : List HostMove)
  /-- Hardware reset (R137); the commands offered before it and never accepted are gone with it. -/
  | reset (rest : List HostMove)
  deriving DecidableEq, Repr

/-- The first move a halted block answers: it passes over the commands, which wait with cmd_ready = 0 (R136). -/
def haltedMove : List HostMove → HaltedMove
  | [] => .stuck
  | .takeResponse :: rest => .take rest
  | .reset :: rest => .reset rest
  | .command w :: rest =>
    match haltedMove rest with
    | .stuck => .stuck
    | .take rest' => .take (.command w :: rest')
    | .reset rest' => .reset rest'

/-- An accepted word: its command's effect, or ReservedCommand (R59, R132). Decoding comes first (R134). -/
def runWord (run : Instr → State → Host.Outcome State Fault Refusal) (w : CommandWord) (s : State) :
    Host.Outcome State Fault Refusal :=
  match decode w with
  | .ok i => run i s
  | .error _ => .next (s.raiseFault .reservedCommand w)

/-- A running block answers the host's next move; with none offered it stays as it is (R60: idle time is cmd_valid = 0). -/
def stepRunning (run : Instr → State → Host.Outcome State Fault Refusal) (rst : State → State) (s : State) :
    Host.Outcome State Fault Refusal :=
  match s.inbox with
  | [] => .next s
  | .takeResponse :: rest => .next ((s.withInbox rest).deliverResponse)
  | .reset :: rest => .next (rst (s.withInbox rest))
  | .command w :: rest => runWord run w (s.accept w rest)

/-- A halted block accepts no command; it still delivers responses, and hardware reset brings it back (R136, R137). -/
def stepHalted (rst : State → State) (s : State) : Host.Outcome State Fault Refusal :=
  match haltedMove s.inbox with
  | .stuck => .fault (.halted s.cause)
  | .take rest => .next ((s.withInbox rest).deliverResponse)
  | .reset rest => .next (rst (s.withInbox rest))

/-- One step of a block whose commands do `run` and whose hardware reset does `rst`. -/
def stepWith (run : Instr → State → Host.Outcome State Fault Refusal) (rst : State → State) (s : State) :
    Host.Outcome State Fault Refusal :=
  if s.fault then stepHalted rst s else stepRunning run rst s

/-- The commands of a program, offered one after another (R24, R49). -/
def offers (ws : List CommandWord) : List HostMove := ws.map .command

end Sys2Proof.Machine
end

