-- ==== Sys2Proof/Machine/Accumulator.lean ====
section
/-! DEFINITION. The read-out of `crc64_accumulator`: READ (R100 to R102). -/

namespace Sys2Proof.Machine

/-- READ (R100): emit ACC as it stands, with no final XOR and no reflection (R11); NotConstructed before CONSTRUCT (R133). -/
def execRead (s : State) : Host.Outcome State Fault Refusal :=
  whenRunning s (whenConstructed s (encode .read) (.next (s.emitResponse s.acc)))

end Sys2Proof.Machine
end

