-- ==== Sys2Proof/Machine/TableGen.lean ====
section
/-! DEFINITION. `crc64_table_gen` and CONSTRUCT (R75 to R79). -/

namespace Sys2Proof.Machine

/-- One round of the table generator's inner loop: test bit 0, shift right, XOR the polynomial in (R76). -/
def tableRound (p v : Word) : Word := if v.getLsbD 0 then (v >>> 1) ^^^ p else v >>> 1

/-- `n` rounds, one after another. -/
def tableRounds (p : Word) : Nat → Word → Word
  | 0, v => v
  | n + 1, v => tableRounds p n (tableRound p v)

/-- TableGen(p)[i]: 8 rounds from `zext_64(i)` (R76). -/
def tableEntry (p : Word) (i : Byte) : Word := tableRounds p 8 (i.setWidth 64)

/-- TableGen(p) (R76). -/
def tableGen (p : Word) : Table := Table.ofEntries (tableEntry p)

/-- CONSTRUCT (R75): TABLE <- TableGen(P_POLY), ACC <- P_INIT, STATUS.CONSTRUCTED <- 1. It never faults. -/
def execConstruct (s : State) : Host.Outcome State Fault Refusal :=
  whenRunning s (.next (((s.writeTable (tableGen s.params.pPoly)).writeAcc s.params.pInit).setConstructed))

end Sys2Proof.Machine
end

