-- ==== Sys2Proof/Machine/UpdatePipeline.lean ====
section
/-! DEFINITION. `crc64_update_pipeline` and UPDATE (R85 to R91). -/

namespace Sys2Proof.Machine

/-- `Step(acc, b)` over the table `t` (R86). -/
def foldStep (t : Table) (acc : Word) (b : Byte) : Word :=
  (acc >>> 8) ^^^ readTable t (tableIndex acc b)

/-- `Fold(acc, bytes)` over the table `t` (R88). -/
def foldBytes (t : Table) : Word → List Byte → Word
  | acc, [] => acc
  | acc, b :: bs => foldBytes t (foldStep t acc b) bs

/-- UPDATE (R85): ACC <- Step(ACC, b); NotConstructed before CONSTRUCT, with the whole word of this UPDATE recorded (R133,
R135). -/
def execUpdate (b : Byte) (s : State) : Host.Outcome State Fault Refusal :=
  whenRunning s (whenConstructed s (encode (.update b)) (.next (s.writeAcc (foldStep s.table s.acc b))))

end Sys2Proof.Machine
end

