-- ==== Sys2Proof/Machine/Dispatch.lean ====
section
/-! DEFINITION. `exec`: one arm per command, each one call of its meaning. -/

namespace Sys2Proof.Machine

/-- The effect of one accepted command. -/
def exec (i : Instr) (s : State) : Host.Outcome State Fault Refusal :=
  match i with
  | .construct => Sys2Proof.Machine.execConstruct s
  | .update b => Sys2Proof.Machine.execUpdate b s
  | .read => Sys2Proof.Machine.execRead s

end Sys2Proof.Machine
end

