-- ==== Sys2Proof/Machine/Step.lean ====
section
/-! DEFINITION. The step of the block, and the state in which it accepts a given word next. -/

namespace Sys2Proof.Machine

/-- One move of the host, answered (R15, R29, R49). -/
def step (s : State) : Host.Outcome State Fault Refusal :=
  stepWith exec State.hardwareReset s

/-- The block fetches no instructions (R24): its next command is the one the host offers next. -/
def State.withFetchWord (s : State) (nbits w : Nat) : State :=
  s.withInbox (.command (tableWord nbits w) :: s.inbox)

end Sys2Proof.Machine
end

