-- ==== Sys2Proof/Machine/Assembler.lean ====
section
/-! DEFINITION. The assembler of R63 to R67: the text of a program to its lines, and the lines to command words. -/

namespace Sys2Proof.Machine

/-- The UTF-8 bytes of one code point (R67, R116). The patterns are standard UTF-8, which the spec takes from general knowledge
(G2). PRESUMED: notes/assumptions/8.md. -/
def utf8Char (c : Char) : List Byte :=
  let n := c.toNat
  let tail (k : Nat) : Byte := BitVec.ofNat 8 (0x80 + n / 2 ^ (6 * k) % 2 ^ 6)
  if n < 0x80 then [BitVec.ofNat 8 n]
  else if n < 0x800 then [BitVec.ofNat 8 (0xC0 + n / 2 ^ 6), tail 0]
  else if n < 0x10000 then [BitVec.ofNat 8 (0xE0 + n / 2 ^ 12), tail 1, tail 0]
  else [BitVec.ofNat 8 (0xF0 + n / 2 ^ 18), tail 2, tail 1, tail 0]

/-- The UTF-8 encoding of a text (R67). -/
def utf8Bytes : Text → List Byte
  | [] => []
  | c :: cs => utf8Char c ++ utf8Bytes cs

/-- The bytes of a text, followed by one zero byte (R67, R116). -/
def cstrBytes (text : Text) : List Byte := utf8Bytes text ++ [0x00]

/-- `feed(bytes)`: one UPDATE per byte, in order (R14, R66). -/
def feed (bytes : List Byte) : List Instr := bytes.map .update

/-- The command words of a sequence of commands. -/
def encodeAll (is : List Instr) : List CommandWord := is.map encode

/-- The commands a well-formed line stands for (R63 to R67). -/
def expandLine : AsmLine → List Instr
  | .construct => [.construct]
  | .update byte => [.update (BitVec.ofNat 8 byte)]
  | .read => [.read]
  | .updateU64le v => feed (leBytes 8 v)
  | .updateU32le v => feed (leBytes 4 v)
  | .updateBytes bytes => feed (bytes.map (BitVec.ofNat 8))
  | .updateCstr text => feed (cstrBytes text)

/-- Why a line is an assembly error (R63). -/
inductive AsmError where
  /-- The mnemonic is none of R63 to R67. -/
  | unknownMnemonic
  /-- The operand is missing, is not written as R63 to R67 write it, or stands where none belongs. -/
  | malformedOperand
  /-- The operand is outside its range. -/
  | operandOutOfRange
  deriving DecidableEq, Repr

/-- One line to its command words; an operand out of range is an assembly error (R63). -/
def assembleLine (l : AsmLine) : Except AsmError (List CommandWord) :=
  if l.wellFormed then .ok (encodeAll (expandLine l)) else .error .operandOutOfRange

/-- A program's lines to its command words, or the first error and no words (DESIGN CHOICE, notes/assumptions/20.md). -/
def assembleLines : List AsmLine → Except AsmError (List CommandWord)
  | [] => .ok []
  | l :: ls =>
    match assembleLine l with
    | .error e => .error e
    | .ok ws =>
      match assembleLines ls with
      | .error e => .error e
      | .ok ws' => .ok (ws ++ ws')

/-! ### Reading the text (R63)
The spec gives one command per line, the comments and the numbers; what ends a line, what a blank is and where it may stand, and how
a quoted text ends, are the model's: DESIGN CHOICE, notes/assumptions/9.md. -/

/-- The code point of the double quote. -/
def quoteChar : Char := Char.ofNat 34

/-- Is the character a blank between the parts of a line? A space, a tab, or a carriage return wherever in the line it stands: DESIGN
CHOICE, notes/assumptions/9.md. -/
def isBlank (c : Char) : Bool := c == ' ' || c == '\t' || c == '\r'

/-- The pieces between the characters for which `sep` holds. There is always one piece or more. -/
def splitAtChars (sep : Char → Bool) : Text → List Text
  | [] => [[]]
  | c :: cs =>
    match splitAtChars sep cs with
    | [] => [[c]]
    | piece :: pieces => if sep c then [] :: piece :: pieces else (c :: piece) :: pieces

/-- A line without its comment: `;` runs to the end of the line (R63), but not inside a quoted text. -/
def dropComment : (quoted : Bool) → Text → Text
  | _, [] => []
  | quoted, c :: cs =>
    if c == ';' && !quoted then [] else c :: dropComment (if c == quoteChar then !quoted else quoted) cs

/-- A text without the blanks at its two ends. -/
def trimBlanks (t : Text) : Text := ((t.dropWhile isBlank).reverse.dropWhile isBlank).reverse

/-- The value of a digit in the base `base`. -/
def digitValue (base : Nat) (c : Char) : Option Nat :=
  let v :=
    if '0'.toNat ≤ c.toNat ∧ c.toNat ≤ '9'.toNat then some (c.toNat - '0'.toNat)
    else if 'a'.toNat ≤ c.toNat ∧ c.toNat ≤ 'f'.toNat then some (c.toNat - 'a'.toNat + 10)
    else if 'A'.toNat ≤ c.toNat ∧ c.toNat ≤ 'F'.toNat then some (c.toNat - 'A'.toNat + 10)
    else none
  v.filter (· < base)

/-- The digits after the value `acc` of the ones before them. -/
def readDigits (base : Nat) : (acc : Nat) → Text → Option Nat
  | acc, [] => some acc
  | acc, c :: cs =>
    match digitValue base c with
    | none => none
    | some d => readDigits base (acc * base + d) cs

/-- A number, decimal or `0x`-prefixed hexadecimal (R63). -/
def readNumber : Text → Option Nat
  | [] => none
  | '0' :: 'x' :: [] => none
  | '0' :: 'x' :: digits => readDigits 16 0 digits
  | digits => readDigits 10 0 digits

/-- The numbers of `update.bytes`, separated by commas; no number at all is the empty list (R66). -/
def readNumbers (t : Text) : Option (List Nat) :=
  if t = [] then some []
  else (splitAtChars (· == ',') t).mapM fun piece => readNumber (trimBlanks piece)

/-- The text between two double quotes (R67). -/
def readQuoted : Text → Option Text
  | [] => none
  | q :: rest =>
    match rest.reverse with
    | [] => none
    | q' :: inside =>
      if q == quoteChar && q' == quoteChar && !inside.contains quoteChar then some inside.reverse else none

/-- The line that a mnemonic makes of its operand. Mnemonics are lower-case (R63). -/
def readOperand (mnemonic operand : Text) : Except AsmError AsmLine :=
  let made (l : Option AsmLine) : Except AsmError AsmLine :=
    match l with
    | some l => .ok l
    | none => .error .malformedOperand
  if mnemonic = "construct".toList then made (if operand = [] then some .construct else none)
  else if mnemonic = "read".toList then made (if operand = [] then some .read else none)
  else if mnemonic = "update".toList then made ((readNumber operand).map .update)
  else if mnemonic = "update.u64le".toList then made ((readNumber operand).map .updateU64le)
  else if mnemonic = "update.u32le".toList then made ((readNumber operand).map .updateU32le)
  else if mnemonic = "update.bytes".toList then made ((readNumbers operand).map .updateBytes)
  else if mnemonic = "update.cstr".toList then made ((readQuoted operand).map .updateCstr)
  else .error .unknownMnemonic

/-- One line of text: a command or pseudo-instruction, or nothing but blanks and a comment (R63). -/
def readLine (t : Text) : Except AsmError (Option AsmLine) :=
  let body := trimBlanks (dropComment false t)
  if body = [] then .ok none
  else
    match readOperand (body.takeWhile (!isBlank ·)) (trimBlanks (body.dropWhile (!isBlank ·))) with
    | .error e => .error e
    | .ok l => .ok (some l)

/-- The lines of a program's text, or the first error and no lines (DESIGN CHOICE, notes/assumptions/20.md). -/
def readLines : List Text → Except AsmError (List AsmLine)
  | [] => .ok []
  | t :: ts =>
    match readLine t with
    | .error e => .error e
    | .ok l =>
      match readLines ts with
      | .error e => .error e
      | .ok ls => .ok (l.toList ++ ls)

/-- The assembler: one command per line (R63), the pseudo-instructions expanded (R64 to R67). A text with an error in any line gives no
words, and of several errors one is reported: the first line's that cannot be read, and only where every line can be read the first
line's whose operand is out of range. R63 says neither: DESIGN CHOICE, notes/assumptions/20.md. Nor does it say what ends a line: here a
line feed (U+000A) and nothing else, DESIGN CHOICE, notes/assumptions/9.md. -/
def assemble (text : Text) : Except AsmError (List CommandWord) :=
  match readLines (splitAtChars (· == '\n') text) with
  | .error e => .error e
  | .ok ls => assembleLines ls

end Sys2Proof.Machine
end

