-- ==== Sys2Proof/Machine/Builder.lean ====
section
/-! DEFINITION. The host's stream contract (R107 to R125): what a pydvdid host does with the block. It is normative for the host and
the block checks none of it (R6); the file system's answers are this file's input data (R5). -/

namespace Sys2Proof.Machine

/-! ### What the file system answers -/

/-- What a path leads to (R120). -/
inductive PathState where
  | missing
  | notDirectory
  | directory
  /-- The check itself failed (R122). -/
  | unreadable
  deriving DecidableEq, Repr

/-- What an entry of the metadata subdirectory is (R109; I11). -/
inductive EntryKind where
  | regularFile
  | directory
  | symbolicLink
  | specialFile
  /-- Reading what it is failed (R122). -/
  | unreadable
  deriving DecidableEq, Repr

/-- What the file system answers when asked for a creation time. -/
inductive TimeAnswer where
  /-- The raw time in Unix-epoch seconds, a rational (R112). -/
  | recorded (raw : Rat)
  /-- The file system has no creation times (I11). -/
  | notRecorded
  /-- Reading it failed (R122). -/
  | failed
  deriving DecidableEq, Repr

/-- One entry directly inside the metadata subdirectory. -/
structure DirEntry where
  kind : EntryKind
  /-- The base name; `none` for one that is not valid Unicode (I11). -/
  name : Option Text
  creationTime : TimeAnswer
  /-- The size in bytes that the file system reports; `none` where reading it failed (R122). -/
  size : Option Nat
  /-- The bytes that a read of the content finds; `none` for none available, as after a failed or cancelled read (R118). -/
  content : Option (List Byte)
  deriving DecidableEq, Repr

/-- What the host finds under `root_path`. -/
structure HostTree where
  rootPath : Text
  root : PathState
  metadataDir : PathState
  /-- The entries of the metadata subdirectory; `none` where listing it failed (R122). -/
  entries : Option (List DirEntry)
  deriving DecidableEq, Repr

/-! ### How a computation ends -/

/-- The path a PathNotFound carries (R120): the root's, the metadata subdirectory's beneath it, or, where reading about an entry
failed, the entry's in that subdirectory (R122). -/
inductive HostPath where
  | root (path : Text)
  | metadataDir (root dir : Text)
  | entry (root dir : Text) (name : Option Text)
  deriving DecidableEq, Repr

/-- The host's error kinds, a closed set of four (R122). They are no faults of the block (R142). -/
inductive HostError where
  /-- R120, with the offending path. -/
  | pathNotFound (path : HostPath)
  /-- R113, with the value. -/
  | timestampOutOfRange (value : Rat)
  /-- R118, with the expected and the actual count; `none` is "none available". -/
  | contentReadIncomplete (expected : Nat) (actual : Option Nat)
  /-- R119. -/
  | requiredFileMissing
  deriving DecidableEq, Repr

/-- A lower-level I/O failure of the host (R122). -/
inductive IoFailure where
  /-- Checking or listing a directory failed. -/
  | directoryRead (path : HostPath)
  /-- Reading an entry's kind, creation time or size failed. -/
  | entryRead (path : HostPath)
  /-- A content read was short, failed or was cancelled (R118). -/
  | contentRead (expected : Nat) (actual : Option Nat)
  deriving DecidableEq, Repr

/-- "any unexpected lower-level I/O failure is mapped to the closest taxonomy kind above" (R122). Which kind is the closest to a
failed read of a directory or of an entry the spec does not say: DESIGN CHOICE, notes/assumptions/21.md. -/
def HostError.ofIoFailure : IoFailure → HostError
  | .directoryRead path => .pathNotFound path
  | .entryRead path => .pathNotFound path
  | .contentRead expected actual => .contentReadIncomplete expected actual

/-- What the spec defines no stream for, so that a host model refuses it (I11; N13). -/
inductive HostRefusal where
  | noCreationTime
  | nameNotUnicode
  | notRegularFile
  deriving DecidableEq, Repr

/-- Why a computation stops before its end. -/
inductive HostStop where
  /-- A host error aborted it (R121). -/
  | aborted (e : HostError)
  /-- The spec defines no stream for this tree (I11). -/
  | unsupported (r : HostRefusal)
  deriving DecidableEq, Repr

/-- How a computation ends. -/
inductive HostEnd where
  /-- The READ was issued, and its response is the fingerprint (R107). -/
  | complete
  | stopped (why : HostStop)
  deriving DecidableEq, Repr

/-- A computation: the commands the host issued, in order, and how it ended. -/
structure HostRun where
  issued : List Instr
  ended : HostEnd
  deriving DecidableEq, Repr

/-! ### The file set and its order (R109, R110) -/

/-- A regular file of the metadata subdirectory, with all the host needs of it. -/
structure SourceFile where
  path : HostPath
  name : Text
  /-- The raw creation time (R112); `none` where reading it failed (R122). -/
  creationTime : Option Rat
  /-- The size in bytes; `none` where reading it failed (R122). -/
  size : Option Nat
  content : Option (List Byte)
  deriving DecidableEq, Repr

/-- The metadata subdirectory's path (R120). -/
def HostTree.dirPath (hp : HostParams) (tree : HostTree) : HostPath := .metadataDir tree.rootPath hp.metadataDir

/-- The path of an entry of the metadata subdirectory. -/
def HostTree.entryPath (hp : HostParams) (tree : HostTree) (name : Option Text) : HostPath :=
  .entry tree.rootPath hp.metadataDir name

/-- The creation time as the record asks for it: a time, or the failure to read it; a file system that has none is refused (I11). -/
def TimeAnswer.toRaw : TimeAnswer → Except HostRefusal (Option Rat)
  | .recorded raw => .ok (some raw)
  | .notRecorded => .error .noCreationTime
  | .failed => .ok none

/-- An entry's part in the file set: a regular file is in it, a subdirectory is not (R109), and the rest ends the computation (I11,
R122). -/
def fileOfEntry (hp : HostParams) (tree : HostTree) (e : DirEntry) : Except HostStop (Option SourceFile) :=
  match e.kind with
  | .directory => .ok none
  | .symbolicLink => .error (.unsupported .notRegularFile)
  | .specialFile => .error (.unsupported .notRegularFile)
  | .unreadable => .error (.aborted (.ofIoFailure (.entryRead (tree.entryPath hp e.name))))
  | .regularFile =>
    match e.name, e.creationTime.toRaw with
    | none, _ => .error (.unsupported .nameNotUnicode)
    | some _, .error r => .error (.unsupported r)
    | some name, .ok time => .ok (some ⟨tree.entryPath hp (some name), name, time, e.size, e.content⟩)

/-- The files among the entries, in the order in which the directory lists them (R109). -/
def filesAmong (hp : HostParams) (tree : HostTree) : List DirEntry → Except HostStop (List SourceFile)
  | [] => .ok []
  | e :: es =>
    match fileOfEntry hp tree e with
    | .error r => .error r
    | .ok f =>
      match filesAmong hp tree es with
      | .error r => .error r
      | .ok fs => .ok (f.toList ++ fs)

/-- The file set (R109), or how the computation ends where it cannot be had (I11, R122). -/
def fileSet (hp : HostParams) (tree : HostTree) : Except HostStop (List SourceFile) :=
  match tree.entries with
  | none => .error (.aborted (.ofIoFailure (.directoryRead (tree.dirPath hp))))
  | some es => filesAmong hp tree es

/-- Lexicographic order by code points, a proper prefix first (R110). -/
def nameLe : Text → Text → Bool
  | [], _ => true
  | _ :: _, [] => false
  | a :: as, b :: bs => if a = b then nameLe as bs else decide (a.toNat < b.toNat)

/-- Put a file before the first one whose name does not come before its own. -/
def insertByName (f : SourceFile) : List SourceFile → List SourceFile
  | [] => [f]
  | g :: gs => if nameLe f.name g.name then f :: g :: gs else g :: insertByName f gs

/-- The file set sorted by base name (R110). -/
def sortByName : List SourceFile → List SourceFile
  | [] => []
  | f :: fs => insertByName f (sortByName fs)

/-! ### The metadata record (R111 to R116) -/

/-- EPOCH_DELTA_SECONDS: from 1601-01-01T00:00:00Z to 1970-01-01T00:00:00Z (R112). -/
def epochDeltaSeconds : Int := 11644473600

/-- 10000-01-01T00:00:00Z in Unix-epoch seconds (R113). -/
def firstSecondOutOfRange : Int := 253402300800

/-- The range check of R113, on the raw value (D19). -/
def timestampInRange (raw : Rat) : Bool :=
  decide (-(epochDeltaSeconds : Rat) ≤ raw) && decide (raw < (firstSecondOutOfRange : Rat))

/-- Truncation toward zero (R112; C6). -/
def truncSeconds (raw : Rat) : Int := raw.num.tdiv raw.den

/-- FILETIME ticks of 100 ns since 1601-01-01T00:00:00Z, with the plus sign of R112 (C1). -/
def fileTimeTicks (raw : Rat) : Int := (truncSeconds raw + epochDeltaSeconds) * 10000000

/-- FileTimeBytes: 8 bytes, unsigned, little-endian (R114). A value in range has ticks of 0 or more (R112). -/
def fileTimeBytes (raw : Rat) : Except HostError (List Byte) :=
  if timestampInRange raw then .ok (leBytes 8 (fileTimeTicks raw).toNat) else .error (.timestampOutOfRange raw)

/-- SizeBytes: the size mod 2^32, 4 bytes, little-endian (R115). -/
def sizeBytes (size : Nat) : List Byte := leBytes 4 size

/-- NameBytes: the base name in UTF-8 and one zero byte (R116). -/
def nameBytes (name : Text) : List Byte := cstrBytes name

/-- Record(f): creation time, size, name (R111). A creation time or size that cannot be read aborts here, before the record's first
byte is fed, and before a creation time that is out of range is looked at: a file with both is reported for what cannot be read. R113
and R122 do not order the two: DESIGN CHOICE, notes/assumptions/21.md. -/
def recordBytes (f : SourceFile) : Except HostError (List Byte) :=
  match f.creationTime, f.size with
  | none, _ => .error (.ofIoFailure (.entryRead f.path))
  | some _, none => .error (.ofIoFailure (.entryRead f.path))
  | some raw, some size =>
    match fileTimeBytes raw with
    | .error e => .error e
    | .ok time => .ok (time ++ sizeBytes size ++ nameBytes f.name)

/-! ### The content pass (R117 to R119) -/

/-- Is the name one of HOST_DESIGNATED_NAMES (R117)? -/
def isDesignated (hp : HostParams) (name : Text) : Bool :=
  decide (name = hp.designatedFirst) || decide (name = hp.designatedSecond)

/-- How many bytes the host asks for of a file of that size: min(size, 65536) (R117). -/
def contentRequest (size : Nat) : Nat := min size 65536

/-- Content(f): the bytes asked for, or ContentReadIncomplete when fewer come (R117, R118) or the read has failed (R122), of a file of
size 0 too. -/
def contentBytes (f : SourceFile) : Except HostError (List Byte) :=
  match f.size with
  | none => .error (.ofIoFailure (.entryRead f.path))
  | some size =>
    match f.content with
    | none => .error (.ofIoFailure (.contentRead (contentRequest size) none))
    | some content =>
      if content.length < contentRequest size then
        .error (.ofIoFailure (.contentRead (contentRequest size) (some content.length)))
      else .ok (content.take (contentRequest size))

/-- Does the file set lack one of the two designated files (R119)? -/
def designatedMissing (hp : HostParams) (fs : List SourceFile) : Bool :=
  !(fs.any (fun f => decide (f.name = hp.designatedFirst)) && fs.any (fun f => decide (f.name = hp.designatedSecond)))

/-! ### The computation (R107, R108, R120, R121) -/

/-- The path checks, before any command is issued (R120); a check that fails itself counts as a failed check (R122;
notes/assumptions/21.md). -/
def checkPaths (hp : HostParams) (tree : HostTree) : Option HostError :=
  if tree.root ≠ .directory then some (.pathNotFound (.root tree.rootPath))
  else if tree.metadataDir ≠ .directory then some (.pathNotFound (tree.dirPath hp))
  else none

/-- One pass over the files: the bytes fed, up to the first error, which aborts the pass (R121). -/
def passBytes (chunk : SourceFile → Except HostError (List Byte)) : List SourceFile → List Byte × Option HostError
  | [] => ([], none)
  | f :: fs =>
    match chunk f with
    | .error e => ([], some e)
    | .ok bytes => (bytes ++ (passBytes chunk fs).1, (passBytes chunk fs).2)

/-- The two passes over the sorted files: every record, then the designated files' content (R107, R108). Where the designated files
are looked for is the model's: DESIGN CHOICE, notes/assumptions/10.md. -/
def streamBytes (hp : HostParams) (fs : List SourceFile) : List Byte × Option HostError :=
  let records := passBytes recordBytes fs
  match records.2 with
  | some e => (records.1, some e)
  | none =>
    if designatedMissing hp fs then (records.1, some .requiredFileMissing)
    else
      let contents := passBytes contentBytes (fs.filter fun f => isDesignated hp f.name)
      (records.1 ++ contents.1, contents.2)

/-- The host's command sequence for a tree (R107); any error aborts it at once, with what was fed before (R121). -/
def compute (hp : HostParams) (tree : HostTree) : HostRun :=
  match checkPaths hp tree with
  | some e => ⟨[], .stopped (.aborted e)⟩
  | none =>
    match fileSet hp tree with
    | .error why => ⟨[], .stopped why⟩
    | .ok fs =>
      match (streamBytes hp (sortByName fs)).2 with
      | some e => ⟨.construct :: feed (streamBytes hp (sortByName fs)).1, .stopped (.aborted e)⟩
      | none => ⟨.construct :: feed (streamBytes hp (sortByName fs)).1 ++ [.read], .complete⟩

/-- The host's moves of one computation: it owns the instance from CONSTRUCT to READ, so nothing stands between them (R124). When
the host takes the READ's response R107 does not say: here after these moves, by a move that is not among them, and it takes no earlier
one between them: DESIGN CHOICE, notes/assumptions/22.md. -/
def HostRun.moves (run : HostRun) : List HostMove := offers (encodeAll run.issued)

/-- The fingerprint: the last response, unless the computation was aborted (R107, R121). That `responses` may be those pending as well
as those taken is the model's: notes/assumptions/22.md. -/
def HostRun.fingerprint (run : HostRun) (responses : List Word) : Option Word :=
  match run.ended with
  | .complete => responses.getLast?
  | .stopped _ => none

/-! ### The text of a result (R123) -/

/-- The lower-case hexadecimal digit of a value below 16. -/
def hexDigit (d : Nat) : Char := if d < 10 then Char.ofNat ('0'.toNat + d) else Char.ofNat ('a'.toNat + (d - 10))

/-- `count` lower-case hexadecimal digits of `v`, most significant first, zero-padded. -/
def hexDigits : (count v : Nat) → Text
  | 0, _ => []
  | count + 1, v => hexDigit (v / 16 ^ count % 16) :: hexDigits count v

/-- The full value of a response, 16 digits. -/
def responseText (r : Word) : Text := hexDigits 16 r.toNat

/-- The high half of a response, 8 digits. -/
def responseHighText (r : Word) : Text := hexDigits 8 (responseHigh r).toNat

/-- The low half of a response, 8 digits. -/
def responseLowText (r : Word) : Text := hexDigits 8 (responseLow r).toNat

end Sys2Proof.Machine
end

