-- ==== Sys2Proof/Machine/RomTable.lean ====
section
/-! DEFINITION. The realisation that R80 allows: TABLE is a read-only table fixed when the instance is built, and CONSTRUCT
only loads ACC and sets STATUS.CONSTRUCTED. -/

namespace Sys2Proof.Machine

/-- CONSTRUCT of a block with a read-only table (R80). -/
def romConstruct (s : State) : Host.Outcome State Fault Refusal :=
  whenRunning s (.next ((s.writeAcc s.params.pInit).setConstructed))

/-- The commands of a block with a read-only table: only CONSTRUCT differs (R80). -/
def romExec (i : Instr) (s : State) : Host.Outcome State Fault Refusal :=
  match i with
  | .construct => romConstruct s
  | .update b => execUpdate b s
  | .read => execRead s

/-- Hardware reset leaves a read-only table as it is (R80). -/
def romReset (s : State) : State := s.hardwareReset.writeTable s.table

/-- One step of a block with a read-only table (R80). -/
def romStep (s : State) : Host.Outcome State Fault Refusal := stepWith romExec romReset s

end Sys2Proof.Machine
end

