-- ==== Sys2Proof/Machine/System.lean ====
section
/-! DEFINITION. Several instances side by side (R52, R141). -/

namespace Sys2Proof.Machine

/-- The instances, each with its own state and its own channels; they share nothing (R141). The place in the list is the model's
bookkeeping, for instances have no identifiers. -/
abbrev System := List State

/-- One instance's own step; where it stops, it stays as it is. -/
def State.advance (s : State) : State :=
  match step s with
  | .next s' => s'
  | .fault _ => s
  | .refused _ => s

/-- The instance at place `k` takes one step, with no effect on another (R52); there is no step where there is no instance. -/
def System.stepInstance (sys : System) (k : Nat) : System := sys.modify k State.advance

/-- A schedule: the instances step in the order in which their places are listed; the spec orders none before another (R52). -/
def System.runSchedule : System → List Nat → System
  | sys, [] => sys
  | sys, k :: ks => (sys.stepInstance k).runSchedule ks

end Sys2Proof.Machine
end

