-- ==== Sys2Proof/Safety.lean ====
section
/-! DEFINITION. The terms in which claims are made: when a run has ended well, the invariant of a step, what the accepted commands
amount to, and which states the host cannot tell apart. -/

namespace Sys2Proof.Machine

/-- `n` steps, stopping at the first fault or refusal: `Host.Core.run` on this machine (Laws/Run.lean). -/
def runSteps : Nat → State → Host.Outcome State Fault Refusal
  | 0, s => .next s
  | n + 1, s =>
    match step s with
    | .next s' => runSteps n s'
    | .fault r => .fault r
    | .refused r => .refused r

/-- A run has ended well: the host has no move left and the block is not halted (R136: a faulted block "is a stopped state that is
never a successful end of a run"). -/
def State.endedWell (s : State) : Bool := s.inbox.isEmpty && !s.fault

/-- The host's move that the block answers next is a hardware reset: its first move, or, on a halted block, the first behind
commands that it does not accept (R136; notes/assumptions/6.md). -/
def HostResets (s : State) : Prop :=
  ∃ ws rest, (s.fault = true ∨ ws = []) ∧ s.inbox = offers ws ++ .reset :: rest

/-- The host's move that the block answers next is taking a response, in the same sense. -/
def HostTakes (s : State) : Prop :=
  ∃ ws rest, (s.fault = true ∨ ws = []) ∧ s.inbox = offers ws ++ .takeResponse :: rest

/-- The host's move that the block answers next is the READ word, and the block runs and is constructed, so that READ emits ACC
(R100). -/
def HostReads (s : State) : Prop :=
  s.fault = false ∧ s.constructed = true ∧ ∃ rest, s.inbox = .command 0x3000 :: rest

/-- STATUS.FAULT = 1 implies CAUSE is 1 or 2, and STATUS.FAULT = 0 implies CAUSE = 0 (R27). -/
def StatusConsistent (s : State) : Prop := s.fault = true ↔ s.cause ≠ .noFault

/-- Once constructed, TABLE is TableGen(P_POLY) (R23). -/
def TableBuilt (s : State) : Prop := s.constructed = true → s.table = tableGen s.params.pPoly

/-- The word that a fault records is one that raises its cause, and it is the last one accepted (R131 to R135); without a fault
FAULT_CMD holds its reset value, since only fault entry writes it (R28). -/
def FaultRecorded (s : State) : Prop :=
  match s.cause with
  | .noFault => s.faultCmd = 0x0000
  | .reservedCommand => isReserved s.faultCmd = true ∧ s.accepted.getLast? = some s.faultCmd
  | .notConstructed =>
    s.constructed = false ∧ s.accepted.getLast? = some s.faultCmd ∧
      ((∃ b, decode s.faultCmd = .ok (.update b)) ∨ decode s.faultCmd = .ok .read)

/-- What a sequence of accepted words amounts to, counted from a hardware reset: the running value from the last CONSTRUCT, and the
values that READs saw (R49). -/
structure History where
  acc : Option Word
  emitted : List Word
  deriving DecidableEq, Repr

/-- The history after one more accepted word. -/
def History.after (p : Params) (h : History) (w : CommandWord) : History :=
  match decode w with
  | .error _ => h
  | .ok .construct => { h with acc := some p.pInit }
  | .ok (.update b) => { h with acc := h.acc.map fun a => foldStep (tableGen p.pPoly) a b }
  | .ok .read => { h with emitted := h.emitted ++ h.acc.toList }

/-- The history of a sequence of accepted words (R49: "applied in order from the last CONSTRUCT"). -/
def historyOf (p : Params) (ws : List CommandWord) : History := ws.foldl (History.after p) ⟨none, []⟩

/-- ACC is what the accepted commands produce, and the values their READs saw are the latest responses, in order, none dropped or
duplicated (R49). -/
def HistoryKept (s : State) : Prop :=
  (s.constructed = true → (historyOf s.params s.accepted).acc = some s.acc) ∧
  (s.constructed = false → (historyOf s.params s.accepted).acc = none) ∧
  (historyOf s.params s.accepted).emitted <:+ s.delivered ++ s.responses

/-- The invariant that every step keeps. -/
def Inv (s : State) : Prop := StatusConsistent s ∧ TableBuilt s ∧ FaultRecorded s ∧ HistoryKept s

/-- Nothing the spec lets the host see tells the two states apart: they agree in all but the count of resets, and in ACC and TABLE
where a CONSTRUCT has given them a value (R31: "no command can observe it before CONSTRUCT"). -/
def SameToHost (s t : State) : Prop :=
  s.params = t.params ∧ s.constructed = t.constructed ∧ s.fault = t.fault ∧ s.cause = t.cause ∧ s.faultCmd = t.faultCmd ∧
  s.responses = t.responses ∧ s.delivered = t.delivered ∧ s.accepted = t.accepted ∧ s.inbox = t.inbox ∧
  (s.constructed = true → s.acc = t.acc ∧ s.table = t.table)

/-- Two outcomes that the host cannot tell apart. -/
def SameOutcomeToHost : Host.Outcome State Fault Refusal → Host.Outcome State Fault Refusal → Prop
  | .next s, .next t => SameToHost s t
  | .fault r, .fault r' => r = r'
  | .refused r, .refused r' => r = r'
  | _, _ => False

/-- The read-only table of R80 holds TableGen(P_POLY), whether or not a CONSTRUCT has come. -/
def RomHolds (s : State) : Prop := s.table = tableGen s.params.pPoly

/-- A state of the block on which no fault has come and which is constructed: what UPDATE and READ ask for (R85, R100). -/
def State.ready (s : State) : Bool := s.constructed && !s.fault

end Sys2Proof.Machine
end

