-- ==== Sys2Proof/Certificates/Slice0/Obligations.lean ====
section
/-! DEFINITION. The statements about the model. -/

open Sys2Proof Sys2Proof.Machine

/-! ### Encoding -/

/-- R59, R61, R63: every command's word decodes to that command and to no other word's, also through the opcode table's numbering of bits. -/
def Obligations.DecodeAndEncodeAgree : Prop :=
  (∀ i : Instr, i.wellFormed = true →
    decode (encode i) = .ok i ∧ decodeTableWord 16 (encode i).toNat = some i) ∧
  (∀ (w : CommandWord) (i : Instr), decode w = .ok i → w = encode i)

/-- The match and mask table of R59, over all words: every word is exactly one of its four rows. -/
def Obligations.DecodeFollowsMatchAndMask : Prop :=
  ∀ w : CommandWord,
    (decode w = .ok .construct ↔ w &&& 0xFFFF = 0x1000) ∧
    (∀ b : Byte, decode w = .ok (.update b) ↔ w &&& 0xFF00 = 0x2000 ∧ b = w.setWidth 8) ∧
    (decode w = .ok .read ↔ w &&& 0xFFFF = 0x3000) ∧
    (isReserved w = true ↔ w &&& 0xFFFF ≠ 0x1000 ∧ w &&& 0xFF00 ≠ 0x2000 ∧ w &&& 0xFFFF ≠ 0x3000)

/-- A few rows of the decoding vectors V6, one or more for each command and for each kind of reserved word. -/
def Obligations.SampleWordsDecode : Prop :=
  decode 0x1000 = .ok .construct ∧ decode 0x2031 = .ok (.update 0x31) ∧ decode 0x20FF = .ok (.update 0xFF) ∧
  decode 0x3000 = .ok .read ∧ isReserved 0x0000 = true ∧ isReserved 0x1001 = true ∧ isReserved 0x1100 = true ∧
  isReserved 0x2100 = true ∧ isReserved 0x3001 = true ∧ isReserved 0x4000 = true ∧ isReserved 0xFFFF = true

/-! ### The table -/

/-- R76: entry `i` of TableGen(p) is 8 rounds of the inner loop from `zext_64(i)`. -/
def Obligations.TableEntriesAreEightRounds : Prop :=
  ∀ (p : Word) (i : Byte),
    (tableGen p)[i.toNat]? =
      some ((fun v : Word => if v &&& 1 = 1 then (v >>> 1) ^^^ p else v >>> 1)^[8] (i.setWidth 64))

/-- R77: the properties of TableGen for every polynomial. -/
def Obligations.TableGenProperties : Prop :=
  (∀ p, readTable (tableGen p) 0x00 = 0) ∧
  (∀ p, readTable (tableGen p) 0x80 = p) ∧
  (∀ p a c, readTable (tableGen p) (a ^^^ c) = readTable (tableGen p) a ^^^ readTable (tableGen p) c) ∧
  (∀ i, readTable (tableGen 0) i = 0)

/-! ### The commands: where each completes, what it writes, and that it writes nothing else -/

/-- R75: CONSTRUCT completes in every state that is not faulted; it writes TABLE, ACC and STATUS.CONSTRUCTED and nothing else. -/
def Obligations.ConstructBuildsTableAndLoadsAcc : Prop :=
  ∀ s : State, s.fault = false →
    exec .construct s =
      .next { s with table := tableGen s.params.pPoly, acc := s.params.pInit, constructed := true }

/-- R85, R86: UPDATE completes in every constructed state that is not faulted, for every byte; it writes ACC and nothing else, from the
one TABLE entry at `(ACC & 0xFF) XOR b`, which always exists (R41). -/
def Obligations.UpdateFoldsOneByte : Prop :=
  ∀ (s : State) (b : Byte), s.fault = false → s.constructed = true →
    ∃ entry, s.table[((s.acc &&& 0xFF) ^^^ b.setWidth 64).toNat]? = some entry ∧
      exec (.update b) s = .next { s with acc := (s.acc >>> 8) ^^^ entry }

/-- R100: READ completes in every constructed state that is not faulted; it appends ACC to the response stream and writes nothing. -/
def Obligations.ReadEmitsAcc : Prop :=
  ∀ s : State, s.fault = false → s.constructed = true →
    exec .read s = .next { s with responses := s.responses ++ [s.acc] }

/-- R47: two READs with nothing between them emit equal values and change neither ACC nor TABLE nor STATUS. -/
def Obligations.ReadCanBeRepeated : Prop :=
  ∀ s : State, s.fault = false → s.constructed = true →
    ∃ t u, exec .read s = .next t ∧ exec .read t = .next u ∧
      u.responses = s.responses ++ [s.acc, s.acc] ∧
      u.acc = s.acc ∧ u.table = s.table ∧ u.statusPort = s.statusPort

/-- R79: CONSTRUCT on an instance leaves the same ACC, TABLE and STATUS whatever came before it, and a second CONSTRUCT rewrites
TABLE with the same values. -/
def Obligations.ConstructForgetsEarlierInput : Prop :=
  ∀ s s' : State, s.fault = false → s'.fault = false → Inv s → Inv s' → s.params = s'.params →
    ∃ t t', exec .construct s = .next t ∧ exec .construct s' = .next t' ∧
      t.acc = t'.acc ∧ t.table = t'.table ∧ t.statusPort = t'.statusPort ∧ t.acc = s.params.pInit ∧
      (s.constructed = true → t.table = s.table)

/-- R133: UPDATE and READ before CONSTRUCT raise NotConstructed with the whole word recorded, and take no other effect (R135); CONSTRUCT
in the same states does not. -/
def Obligations.CommandsBeforeConstructFault : Prop :=
  ∀ (s : State) (w : CommandWord) (rest : List HostMove),
    s.fault = false → s.constructed = false → s.inbox = .command w :: rest →
    ((w &&& 0xFF00 = 0x2000 ∨ w = 0x3000) →
      step s = .next { s with
        fault := true, cause := .notConstructed, faultCmd := w, inbox := rest, accepted := s.accepted ++ [w] }) ∧
    (w = 0x1000 → ∃ t, step s = .next t ∧ t.fault = false ∧ t.cause = s.cause ∧ t.constructed = true)

/-- R132, R134, R135: a reserved word raises ReservedCommand whether or not the block is constructed, and takes no other effect. -/
def Obligations.ReservedWordsFault : Prop :=
  ∀ (s : State) (w : CommandWord) (rest : List HostMove),
    s.fault = false → s.inbox = .command w :: rest →
    ((w.extractLsb' 12 4 = 0x0 ∨ 4 ≤ (w.extractLsb' 12 4).toNat) ∨ w.extractLsb' 8 4 ≠ 0 ∨
      ((w.extractLsb' 12 4 = 0x1 ∨ w.extractLsb' 12 4 = 0x3) ∧ w.extractLsb' 0 8 ≠ 0)) →
    step s = .next { s with
      fault := true, cause := .reservedCommand, faultCmd := w, inbox := rest, accepted := s.accepted ++ [w] }

/-! ### The fold -/

/-- R89: a stream folded whole is the stream folded in parts, in any partition into contiguous parts, empty ones too. -/
def Obligations.StreamingEquivalence : Prop :=
  ∀ (t : Table) (acc : Word),
    (∀ s₁ s₂ : List Byte, foldBytes t acc (s₁ ++ s₂) = foldBytes t (foldBytes t acc s₁) s₂) ∧
    (∀ parts : List (List Byte), foldBytes t acc parts.flatten = parts.foldl (foldBytes t) acc)

/-- R90: the corner laws of Step, and a message followed by its own result as 8 little-endian bytes folds to 0, for every P_POLY and
every P_INIT. -/
def Obligations.FoldCornerLaws : Prop :=
  ∀ p : Word,
    (∀ acc, foldStep (tableGen p) acc (acc.setWidth 8) = acc >>> 8) ∧
    foldStep (tableGen p) 0 0 = 0 ∧
    (∀ b, foldStep (tableGen p) 0 b = readTable (tableGen p) b) ∧
    (∀ a₁ a₂ b₁ b₂, foldStep (tableGen p) (a₁ ^^^ a₂) (b₁ ^^^ b₂) =
      foldStep (tableGen p) a₁ b₁ ^^^ foldStep (tableGen p) a₂ b₂) ∧
    (∀ acc : Word, foldBytes (tableGen p) acc (leBytes 8 acc.toNat) = 0) ∧
    (∀ (init : Word) (bytes : List Byte),
      foldBytes (tableGen p) init (bytes ++ leBytes 8 (foldBytes (tableGen p) init bytes).toNat) = 0)

/-- R88, R91: `n` UPDATEs offered in order to a constructed block take `n` steps and leave ACC = Fold(ACC, bytes) and nothing else
changed but the channels; the empty sequence has no effect. -/
def Obligations.UpdateSequenceFoldsInOrder : Prop :=
  (∀ (t : Table) (acc : Word), foldBytes t acc [] = acc) ∧
  (∀ (t : Table) (acc : Word) (b : Byte) (bs : List Byte),
    foldBytes t acc (b :: bs) = foldBytes t (foldStep t acc b) bs) ∧
  (∀ (bytes : List Byte) (s : State) (rest : List HostMove),
    s.fault = false → s.constructed = true → s.inbox = offers (encodeAll (feed bytes)) ++ rest →
    runSteps bytes.length s =
      .next { s with
        acc := foldBytes s.table s.acc bytes, inbox := rest, accepted := s.accepted ++ encodeAll (feed bytes) })

/-! ### The step -/

/-- R15, R49: a word offered to a block that is not faulted is accepted, and the step runs the command it decodes to. That a word
placed by `withFetchWord` is the next command, before all other moves of the host, is the model's choice
(notes/assumptions/7.md). -/
def Obligations.StepRunsTheDecodedCommand : Prop :=
  ∀ (s : State) (w : CommandWord) (rest : List HostMove) (i : Instr),
    s.fault = false → s.inbox = .command w :: rest → decode w = .ok i →
    step s = exec i { s with inbox := rest, accepted := s.accepted ++ [w] } ∧
    ∀ u : State, u.fault = false →
      step (u.withFetchWord 16 w.toNat) = exec i { u with accepted := u.accepted ++ [w] }

/-- R154, R30: a block that is not faulted always answers a next state, whatever the host's moves are, and a command offered next is
accepted by that step. That no step passes in between is the model's choice (notes/assumptions/5.md). -/
def Obligations.RunningBlockAlwaysSteps : Prop :=
  ∀ s : State, s.fault = false →
    (∃ t, step s = .next t) ∧
    (∀ w rest, s.inbox = .command w :: rest →
      ∃ t, step s = .next t ∧ t.accepted = s.accepted ++ [w] ∧ t.inbox = rest)

/-- R136 (I8 "stuck"; notes/assumptions/16.md): a halted block accepts no command: every command's meaning stops, and so does every step while the host only offers
commands; such a state is no good end. -/
def Obligations.HaltedBlockAcceptsNoCommand : Prop :=
  ∀ s : State, s.fault = true →
    (∀ i : Instr, exec i s = .fault (.halted s.cause)) ∧
    ((∀ m ∈ s.inbox, ∃ w, m = .command w) → step s = .fault (.halted s.cause)) ∧
    s.cmdReady = false ∧ s.endedWell = false

/-- R136, R29: a response is delivered when the host takes it, oldest first, also by a halted block whose offered commands wait; with
none to take nothing is delivered. That a take with nothing pending is used up and does nothing else is the model's
(notes/assumptions/15.md). That commands offered before do not keep the response channel waiting is the model's choice
(notes/assumptions/6.md). -/
def Obligations.TakenResponseIsDelivered : Prop :=
  ∀ (s : State) (ws : List CommandWord) (rest : List HostMove),
    s.inbox = offers ws ++ .takeResponse :: rest → (s.fault = true ∨ ws = []) →
    (∀ r rs, s.responses = r :: rs →
      step s = .next { s with responses := rs, delivered := s.delivered ++ [r], inbox := offers ws ++ rest }) ∧
    (s.responses = [] → step s = .next { s with inbox := offers ws ++ rest })

/-- R60, R150: a block that is not faulted and is offered nothing waits; that a step then answers the same state is the model's
(notes/assumptions/15.md). -/
def Obligations.IdleBlockWaits : Prop :=
  ∀ s : State, s.fault = false → s.inbox = [] → step s = .next s

/-- R137: a fault stays, with all it recorded, and the block's data with it, until hardware reset; hardware reset clears FAULT, CAUSE,
FAULT_CMD and CONSTRUCTED, also behind commands that the halted block has not accepted (P4c), which is the model's choice
(notes/assumptions/6.md). It stays at every step that answers another move than a reset, wherever a reset may stand behind it. -/
def Obligations.OnlyResetLeavesAFault : Prop :=
  ∀ s : State, s.fault = true →
    (¬ HostResets s → ∀ t, step s = .next t →
      t.fault = true ∧ t.cause = s.cause ∧ t.faultCmd = s.faultCmd ∧ t.constructed = s.constructed ∧
      t.acc = s.acc ∧ t.table = s.table ∧ t.accepted = s.accepted) ∧
    (∀ (ws : List CommandWord) (rest : List HostMove), s.inbox = offers ws ++ .reset :: rest →
      ∃ t, step s = .next t ∧ t.fault = false ∧ t.cause = .noFault ∧ t.faultCmd = 0x0000 ∧ t.constructed = false)

/-- R31, R150: what hardware reset leaves of a block that runs or is halted. `acc` and `table` stand for the values that R31 does
not give; the statement holds whatever they are. The model's choices in it: the list of accepted words starts anew and the host's own
output sequence stays (notes/assumptions/4.md), the commands that a halted block has not accepted go with the reset
(notes/assumptions/6.md), and the model's own counter goes up by 1 (notes/assumptions/2.md). -/
def Obligations.HardwareResetClearsControlState : Prop :=
  ∀ (s : State) (ws : List CommandWord) (rest : List HostMove),
    s.inbox = offers ws ++ .reset :: rest → (s.fault = true ∨ ws = []) →
    ∃ acc table, step s = .next
      { s with
        acc := acc, table := table, constructed := false, fault := false, cause := .noFault, faultCmd := 0x0000,
        responses := [], accepted := [], inbox := rest, resets := s.resets + 1 }

/-- R31: the control state right after reset. -/
def Obligations.ResetStateIsIdleUnconstructed : Prop :=
  State.reset.statusPort = 0x00 ∧ State.reset.constructed = false ∧ State.reset.fault = false ∧
  State.reset.cause = .noFault ∧ State.reset.faultCmd = 0x0000 ∧ State.reset.responses = [] ∧
  State.reset.cmdReady = true

/-- R25: the layout of STATUS, in every state: each field at its bits, code 3 never in CAUSE, bits [7:4] 0. -/
def Obligations.StatusPortLayout : Prop :=
  ∀ s : State,
    s.statusPort.getLsbD 0 = s.constructed ∧ s.statusPort.getLsbD 1 = s.fault ∧
    s.statusPort.extractLsb' 2 2 =
      (match s.cause with
       | .noFault => 0
       | .reservedCommand => 1
       | .notConstructed => 2) ∧
    s.statusPort.extractLsb' 2 2 ≠ 3 ∧ s.statusPort.extractLsb' 4 4 = 0

/-- R22, R23: what a step can write to ACC and TABLE. TABLE changes by CONSTRUCT and hardware reset only, ACC by CONSTRUCT, UPDATE and
hardware reset only. (A reset that a halted block answers may stand behind commands it has not accepted: `HostResets`, notes/assumptions/6.md.) -/
def Obligations.WritersOfAccAndTable : Prop :=
  ∀ s t : State, step s = .next t →
    (t.acc = s.acc ∧ t.table = s.table) ∨
    (∃ rest, s.fault = false ∧ s.inbox = .command 0x1000 :: rest ∧
      t.acc = s.params.pInit ∧ t.table = tableGen s.params.pPoly) ∨
    (∃ b rest, s.fault = false ∧ s.constructed = true ∧ s.inbox = .command (0x2000 ||| b.setWidth 16) :: rest ∧
      t.acc = foldStep s.table s.acc b ∧ t.table = s.table) ∨
    (HostResets s ∧ t.constructed = false)

/-- R26: only CONSTRUCT sets STATUS.CONSTRUCTED, only hardware reset clears it (behind commands that a halted block has
not accepted too: notes/assumptions/6.md), and CONSTRUCT never faults. -/
def Obligations.WritersOfConstructed : Prop :=
  ∀ s t : State, step s = .next t →
    (s.constructed = false → t.constructed = true →
      s.fault = false ∧ t.fault = false ∧ ∃ rest, s.inbox = .command 0x1000 :: rest) ∧
    (s.constructed = true → t.constructed = false → HostResets s)

/-- R27, R28, R132 to R135: STATUS.FAULT, STATUS.CAUSE and FAULT_CMD change only by fault entry, which an accepted word causes that is
Reserved, or is UPDATE or READ before CONSTRUCT, and by hardware reset (`HostResets`, notes/assumptions/6.md). -/
def Obligations.WritersOfFaultState : Prop :=
  ∀ s t : State, step s = .next t →
    (t.fault = s.fault ∧ t.cause = s.cause ∧ t.faultCmd = s.faultCmd) ∨
    (∃ w rest, s.fault = false ∧ s.inbox = .command w :: rest ∧ t.fault = true ∧ t.faultCmd = w ∧
      t.acc = s.acc ∧ t.table = s.table ∧ t.constructed = s.constructed ∧ t.responses = s.responses ∧
      ((isReserved w = true ∧ t.cause = .reservedCommand) ∨
       (((∃ b, decode w = .ok (.update b)) ∨ decode w = .ok .read) ∧ s.constructed = false ∧
         t.cause = .notConstructed))) ∨
    (HostResets s ∧ t.fault = false ∧ t.cause = .noFault ∧ t.faultCmd = 0x0000)

/-- R9, R32: no step changes P_POLY or P_INIT. -/
def Obligations.ParametersNeverChange : Prop :=
  ∀ s t : State, step s = .next t → t.params = s.params

/-- R24: the index of the next command goes up by 1 at each accepted command and otherwise stays; that a hardware reset starts it at 0
again (notes/assumptions/4.md), and that a halted block answers a take or a reset behind commands it has not accepted
(notes/assumptions/6.md), are the model's choices. -/
def Obligations.IndexCountsAcceptedCommands : Prop :=
  State.reset.position = 0 ∧
  ∀ s t : State, step s = .next t →
    (t.position = s.position + 1 ∧ s.fault = false ∧ ∃ w, s.inbox = .command w :: t.inbox) ∨
    (t.position = s.position ∧ (s.inbox = [] ∨ HostTakes s)) ∨
    (t.position = 0 ∧ HostResets s)

/-- R49, R102: a response is never taken back from the host and goes to it only when it takes one; a READ on a constructed block appends
ACC; a hardware reset discards what is pending; and every other step keeps the received and the pending responses together as they
were, so none is dropped, duplicated or reordered. That the host's output stays at a reset is the model's choice
(notes/assumptions/4.md), and so is that a halted block answers a take or a reset behind commands it has not accepted
(notes/assumptions/6.md). -/
def Obligations.ResponsesKeepTheirOrder : Prop :=
  ∀ s t : State, step s = .next t →
    s.delivered <+: t.delivered ∧
    (¬ HostTakes s → t.delivered = s.delivered) ∧
    (HostReads s → t.responses = s.responses ++ [s.acc]) ∧
    (HostResets s → t.responses = []) ∧
    (¬ HostReads s → ¬ HostResets s → t.delivered ++ t.responses = s.delivered ++ s.responses)

/-! ### Headline results -/

/-- The invariant holds of the state after reset (R31). -/
def Obligations.InvariantHoldsAtReset : Prop := Inv State.reset

/-- R23, R27, R28, R49, R153: every step keeps the invariant: STATUS is consistent, TABLE is TableGen(P_POLY) once constructed, a fault's
record is true, ACC is what the accepted commands produce, and the latest responses are the values their READs saw, in order. -/
def Obligations.EveryStepKeepsTheInvariant : Prop :=
  ∀ s t : State, Inv s → step s = .next t → Inv t

/-- R31, R150: what ACC and TABLE hold before CONSTRUCT cannot be observed: two states that the host cannot tell apart show the same
ports and step to outcomes that it cannot tell apart. -/
def Obligations.ValuesBeforeConstructAreUnobservable : Prop :=
  ∀ s t : State, SameToHost s t →
    SameOutcomeToHost (step s) (step t) ∧
    s.statusPort = t.statusPort ∧ s.faultCmdPort = t.faultCmdPort ∧ s.cmdReady = t.cmdReady ∧
    s.rspValid = t.rspValid ∧ s.rspData = t.rspData

/-- R80: a block with a read-only table that CONSTRUCT does not write cannot be told from the block of R75: each of its steps answers as
the block's, and its table stays TableGen(P_POLY). -/
def Obligations.ReadOnlyTableIsIndistinguishable : Prop :=
  ∀ s t : State, SameToHost s t → RomHolds t →
    SameOutcomeToHost (step s) (romStep t) ∧ ∀ t', romStep t = .next t' → RomHolds t'

/-- R107, R121, R124: a computation that completes, run on a block that is not faulted, whatever it holds from before, ends well and
gives the fold of the host's byte stream from P_INIT over TableGen(P_POLY) as the fingerprint. The model's own in it: each offered
command takes one step and the response stream has no bound (notes/assumptions/5.md), UTF-8 (notes/assumptions/8.md), and the host's
errors, times and input data (notes/assumptions/10.md, 11.md, 12.md, 21.md), and that the fingerprint is the last of the responses still
pending, since the computation's moves take none (notes/assumptions/22.md). -/
def Obligations.FingerprintIsTheFoldOfTheStream : Prop :=
  ∀ (hp : HostParams) (tree : HostTree) (fs : List SourceFile) (s : State),
    fileSet hp tree = .ok fs → (compute hp tree).ended = .complete →
    s.fault = false → s.inbox = (compute hp tree).moves →
    ∃ t, runSteps (compute hp tree).moves.length s = .next t ∧ t.endedWell = true ∧
      t.responses.length = s.responses.length + 1 ∧
      (compute hp tree).fingerprint t.responses =
        some (foldBytes (tableGen s.params.pPoly) s.params.pInit (streamBytes hp (sortByName fs)).1)

/-! ### Several instances -/

/-- R52, R141: an instance's step is the block's own step, and leaves every other instance as it is; steps of two instances can be
taken in either order; and under any schedule an instance is where its own steps alone take it. That instances are places in a list,
that a schedule lists them, and that an instance that stops stays as it is, are the model's (notes/assumptions/19.md). -/
def Obligations.InstancesAreIndependent : Prop :=
  (∀ s t : State, step s = .next t → s.advance = t) ∧
  (∀ s : State, (∀ t, step s ≠ .next t) → s.advance = s) ∧
  (∀ (sys : System) (k : Nat), (sys.stepInstance k)[k]? = sys[k]?.map State.advance) ∧
  (∀ (sys : System) (j k : Nat), j ≠ k →
    (sys.stepInstance k)[j]? = sys[j]? ∧
    (sys.stepInstance k).stepInstance j = (sys.stepInstance j).stepInstance k) ∧
  (∀ (sys : System) (schedule : List Nat) (j : Nat),
    (sys.runSchedule schedule)[j]? = sys[j]?.map (State.advance^[schedule.count j]))

/-! ### The assembler -/

/-- R63: an assembler never emits a reserved word. How the text is read is in part the model's choice (notes/assumptions/9.md, 20.md). -/
def Obligations.AssemblerEmitsNoReservedWord : Prop :=
  ∀ (text : Text) (ws : List CommandWord), assemble text = .ok ws → ∀ w ∈ ws, isReserved w = false

/-- R63 to R67: the words of each kind of line whose operand is in range, and the errors of those out of range. That update.u64le refuses
a value of more than 64 bits is the model's choice (notes/assumptions/9.md), and UTF-8 is general knowledge
(notes/assumptions/8.md). -/
def Obligations.AssemblyLinesExpand : Prop :=
  assembleLine .construct = .ok [0x1000] ∧ assembleLine .read = .ok [0x3000] ∧
  (∀ byte < 256, assembleLine (.update byte) = .ok [BitVec.ofNat 16 (0x2000 + byte)]) ∧
  (∀ byte ≥ 256, assembleLine (.update byte) = .error .operandOutOfRange) ∧
  (∀ v < 2 ^ 64, assembleLine (.updateU64le v) =
    .ok ((List.range 8).map fun i => BitVec.ofNat 16 (0x2000 + v / 256 ^ i % 256))) ∧
  (∀ v, assembleLine (.updateU32le v) =
    .ok ((List.range 4).map fun i => BitVec.ofNat 16 (0x2000 + v / 256 ^ i % 256))) ∧
  (∀ bytes : List Nat, (∀ b ∈ bytes, b < 256) →
    assembleLine (.updateBytes bytes) = .ok (bytes.map fun b => BitVec.ofNat 16 (0x2000 + b))) ∧
  (∀ bytes : List Nat, (∃ b ∈ bytes, 256 ≤ b) → assembleLine (.updateBytes bytes) = .error .operandOutOfRange) ∧
  (∀ v ≥ 2 ^ 64, assembleLine (.updateU64le v) = .error .operandOutOfRange) ∧
  (∀ text : Text, assembleLine (.updateCstr text) =
    .ok ((text.flatMap fun c => (String.utf8EncodeChar c).map fun u => BitVec.ofNat 16 (0x2000 + u.toNat)) ++ [0x2000]))

/-- R67, R116 (G2): a name's bytes are its UTF-8 encoding and one zero byte, and no code point but U+0000 makes a zero byte within it. The UTF-8 patterns are general knowledge (notes/assumptions/8.md). -/
def Obligations.NameBytesAreUtf8AndZero : Prop :=
  ∀ name : Text,
    (nameBytes name).map BitVec.toNat =
      (name.flatMap fun c => (String.utf8EncodeChar c).map UInt8.toNat) ++ [0] ∧
    ((∀ c ∈ name, c.toNat ≠ 0) → ∀ b ∈ utf8Bytes name, b ≠ 0)

/-! ### The host's stream -/

/-- R112, R114: a creation time in range is truncated toward zero, counted from 1601-01-01 in ticks of 100 ns, and fed as 8 bytes, lowest
first; the ticks are 0 to 2650467743990000000. The raw time is a rational in the model (notes/assumptions/11.md). -/
def Obligations.FileTimeBytesInRange : Prop :=
  ∀ raw : Rat, -11644473600 ≤ raw → raw < 253402300800 →
    ∃ bytes, fileTimeBytes raw = .ok bytes ∧ bytes.length = 8 ∧
      0 ≤ ((if 0 ≤ raw then ⌊raw⌋ else ⌈raw⌉) + 11644473600) * 10000000 ∧
      ((if 0 ≤ raw then ⌊raw⌋ else ⌈raw⌉) + 11644473600) * 10000000 ≤ 2650467743990000000 ∧
      ((bytes.foldr (fun b n => b.toNat + 256 * n) 0 : Nat) : Int) =
        ((if 0 ≤ raw then ⌊raw⌋ else ⌈raw⌉) + 11644473600) * 10000000

/-- R113: a creation time before 1601 or from the year 10000 on is refused with its raw value, and so is the record of a file that has
it and whose size is read. -/
def Obligations.FileTimeOutOfRangeIsRefused : Prop :=
  ∀ raw : Rat, (raw < -11644473600 ∨ 253402300800 ≤ raw) →
    fileTimeBytes raw = .error (.timestampOutOfRange raw) ∧
    ∀ (f : SourceFile) (size : Nat), f.creationTime = some raw → f.size = some size →
      recordBytes f = .error (.timestampOutOfRange raw)

/-- R111: a record is FileTimeBytes, then SizeBytes, then NameBytes: 8 bytes, 4 bytes, and the name's. The raw time is a rational in the
model (notes/assumptions/11.md). -/
def Obligations.RecordIsTimeThenSizeThenName : Prop :=
  ∀ (f : SourceFile) (raw : Rat) (size : Nat),
    f.creationTime = some raw → f.size = some size → -11644473600 ≤ raw → raw < 253402300800 →
    ∃ time, fileTimeBytes raw = .ok time ∧ time.length = 8 ∧ (sizeBytes size).length = 4 ∧
      recordBytes f = .ok (time ++ sizeBytes size ++ nameBytes f.name)

/-- R122: an I/O failure ends the computation in one of the four kinds: a directory or an entry that cannot be read in PathNotFound with
its path, a content read in ContentReadIncomplete (ContentIsWholeOrRefused). Which kind is the closest is the model's choice
(notes/assumptions/21.md). -/
def Obligations.IoFailuresAreHostErrors : Prop :=
  (∀ (hp : HostParams) (tree : HostTree), tree.root = .unreadable →
    compute hp tree = ⟨[], .stopped (.aborted (.pathNotFound (.root tree.rootPath)))⟩) ∧
  (∀ (hp : HostParams) (tree : HostTree), tree.root = .directory →
    (tree.metadataDir = .unreadable ∨ (tree.metadataDir = .directory ∧ tree.entries = none)) →
    compute hp tree = ⟨[], .stopped (.aborted (.pathNotFound (.metadataDir tree.rootPath hp.metadataDir)))⟩) ∧
  (∀ (hp : HostParams) (tree : HostTree) (before after : List DirEntry) (e : DirEntry) (fs : List SourceFile),
    tree.root = .directory → tree.metadataDir = .directory → tree.entries = some (before ++ e :: after) →
    filesAmong hp tree before = .ok fs → e.kind = .unreadable →
    compute hp tree = ⟨[], .stopped (.aborted (.pathNotFound (.entry tree.rootPath hp.metadataDir e.name)))⟩) ∧
  (∀ f : SourceFile, (f.creationTime = none ∨ f.size = none) → recordBytes f = .error (.pathNotFound f.path)) ∧
  (∀ (hp : HostParams) (tree : HostTree) (fs : List SourceFile), fileSet hp tree = .ok fs →
    ∀ f ∈ fs, f.path = .entry tree.rootPath hp.metadataDir (some f.name))

/-- R115: the size is fed mod 2^32 as 4 bytes, lowest first. -/
def Obligations.SizeBytesWrapAround : Prop :=
  ∀ size : Nat, (sizeBytes size).length = 4 ∧
    (sizeBytes size).foldr (fun b n => b.toNat + 256 * n) 0 = size % 2 ^ 32

/-- R110: the sorted list holds the same files, in lexicographic order of the code points of their names. -/
def Obligations.FilesAreSortedByName : Prop :=
  ∀ fs : List SourceFile,
    (sortByName fs).Perm fs ∧
    (sortByName fs).Pairwise fun f g => f.name.map Char.toNat ≤ g.name.map Char.toNat

/-- R117, R118, R122: the first min(size, 65536) bytes are fed where the read brings them all; otherwise the read is incomplete, with the
expected and the actual count. A read that has failed, with none available, is incomplete whatever the size: for a file of size 0, of
which no byte is missing, by R122 and notes/assumptions/21.md. -/
def Obligations.ContentIsWholeOrRefused : Prop :=
  ∀ (f : SourceFile) (size : Nat), f.size = some size →
    (∀ content, f.content = some content → min size 65536 ≤ content.length →
      contentBytes f = .ok (content.take (min size 65536))) ∧
    (∀ content, f.content = some content → content.length < min size 65536 →
      contentBytes f = .error (.contentReadIncomplete (min size 65536) (some content.length))) ∧
    (f.content = none →
      contentBytes f = .error (.contentReadIncomplete (min size 65536) none))

/-- R120: a wrong root or metadata subdirectory is PathNotFound with that path, before any command is issued. That one whose check
fails itself (`PathState.unreadable`) is PathNotFound too is the model's choice (notes/assumptions/21.md). -/
def Obligations.PathsAreCheckedFirst : Prop :=
  ∀ (hp : HostParams) (tree : HostTree),
    (tree.root ≠ .directory → compute hp tree = ⟨[], .stopped (.aborted (.pathNotFound (.root tree.rootPath)))⟩) ∧
    (tree.root = .directory → tree.metadataDir ≠ .directory →
      compute hp tree = ⟨[], .stopped (.aborted (.pathNotFound (.metadataDir tree.rootPath hp.metadataDir)))⟩)

/-- R107, R108, R111: the commands of a computation that completes: CONSTRUCT, every file's record in sorted order, then the designated
files' content in the same order, then READ. -/
def Obligations.CompleteComputationShape : Prop :=
  ∀ (hp : HostParams) (tree : HostTree), (compute hp tree).ended = .complete →
    ∃ (fs : List SourceFile) (records contents : List (List Byte)),
      fileSet hp tree = .ok fs ∧
      (sortByName fs).map recordBytes = records.map .ok ∧
      ((sortByName fs).filter fun f => isDesignated hp f.name).map contentBytes = contents.map .ok ∧
      (compute hp tree).issued =
        [.construct] ++ (records.flatten ++ contents.flatten).map .update ++ [.read]

/-- R121: a computation that does not complete issues no READ and has no fingerprint, whatever the block has answered. That a tree
without a defined stream (I11) is refused before any command, and so ends in the same way, is the model's choice
(notes/assumptions/10.md). -/
def Obligations.AbortedComputationHasNoResult : Prop :=
  ∀ (hp : HostParams) (tree : HostTree), (compute hp tree).ended ≠ .complete →
    .read ∉ (compute hp tree).issued ∧ ∀ responses, (compute hp tree).fingerprint responses = none

/-- R119: without both designated files there is no fingerprint; where every file's record is fed, the error is RequiredFileMissing.
That it comes after the records and before the contents is the model's choice (notes/assumptions/10.md). -/
def Obligations.MissingDesignatedFileAborts : Prop :=
  ∀ (hp : HostParams) (tree : HostTree) (fs : List SourceFile),
    tree.root = .directory → tree.metadataDir = .directory → fileSet hp tree = .ok fs →
    ((∀ f ∈ fs, f.name ≠ hp.designatedFirst) ∨ (∀ f ∈ fs, f.name ≠ hp.designatedSecond)) →
    (compute hp tree).ended ≠ .complete ∧
    ((∀ f ∈ fs, ∃ raw size, f.creationTime = some raw ∧ timestampInRange raw = true ∧ f.size = some size) →
      (compute hp tree).ended = .stopped (.aborted .requiredFileMissing))

/-- R113, R118, R119, R121, R122: the first file in sorted order whose record gives an error ends the computation with that very error,
with CONSTRUCT and the records before it issued and nothing else; where every record is fed, so does a missing designated file, with
all records fed, and else the first designated file whose content gives an error, with the contents before it fed as well. Where the
missing file is looked for, and that a chunk with an error feeds none of its bytes, are the model's choices
(notes/assumptions/10.md, 21.md). -/
def Obligations.FirstErrorEndsTheComputation : Prop :=
  ∀ (hp : HostParams) (tree : HostTree) (fs : List SourceFile),
    tree.root = .directory → tree.metadataDir = .directory → fileSet hp tree = .ok fs →
    (∀ (before after : List SourceFile) (f : SourceFile) (records : List (List Byte)) (e : HostError),
      sortByName fs = before ++ f :: after → before.map recordBytes = records.map .ok → recordBytes f = .error e →
      compute hp tree = ⟨.construct :: records.flatten.map .update, .stopped (.aborted e)⟩) ∧
    (∀ records : List (List Byte), (sortByName fs).map recordBytes = records.map .ok →
      (((∀ f ∈ fs, f.name ≠ hp.designatedFirst) ∨ (∀ f ∈ fs, f.name ≠ hp.designatedSecond)) →
        compute hp tree = ⟨.construct :: records.flatten.map .update, .stopped (.aborted .requiredFileMissing)⟩) ∧
      ((∃ f ∈ fs, f.name = hp.designatedFirst) → (∃ f ∈ fs, f.name = hp.designatedSecond) →
        ∀ (before after : List SourceFile) (f : SourceFile) (contents : List (List Byte)) (e : HostError),
          ((sortByName fs).filter fun g => isDesignated hp g.name) = before ++ f :: after →
          before.map contentBytes = contents.map .ok → contentBytes f = .error e →
          compute hp tree =
            ⟨.construct :: (records.flatten ++ contents.flatten).map .update, .stopped (.aborted e)⟩))

/-! ### Responses -/

/-- R44, R103: the halves of a response are its bits [63:32] and [31:0]. -/
def Obligations.ResponseHalves : Prop :=
  ∀ r : Word, responseHigh r ++ responseLow r = r ∧
    (responseHigh r).toNat = r.toNat / 2 ^ 32 ∧ (responseLow r).toNat = r.toNat % 2 ^ 32

/-- R123: the text of a response is 16 lower-case hexadecimal digits, most significant first, zero-padded, and reads back as the value; its
halves are the texts of the halves. -/
def Obligations.ResponseTextIsExact : Prop :=
  ∀ r : Word,
    (responseText r).length = 16 ∧
    (∀ c ∈ responseText r, c ∈ "0123456789abcdef".toList) ∧
    (responseText r).foldl (fun n c => 16 * n + "0123456789abcdef".toList.idxOf c) 0 = r.toNat ∧
    responseText r = responseHighText r ++ responseLowText r ∧
    (responseHighText r).length = 8 ∧ (responseLowText r).length = 8
end

