-- ==== Sys2Proof/Laws/Builder.lean ====
section
/-! SUPPORT. What a pass of the host over its files gives: all the chunks, or those before the first error and that error. -/

namespace Sys2Proof.Machine

variable {chunk : SourceFile → Except HostError (List Byte)}

/-- A pass in which every file gives its chunk feeds them all. -/
theorem passBytes_of_ok {fs : List SourceFile} {chunks : List (List Byte)} (h : fs.map chunk = chunks.map .ok) :
    passBytes chunk fs = (chunks.flatten, none) := by
  induction fs generalizing chunks with
  | nil =>
    obtain rfl : chunks = [] := by simpa using h
    rfl
  | cons f fs ih =>
    obtain _ | ⟨c, cs⟩ := chunks
    · simp at h
    · obtain ⟨hc, hcs⟩ : chunk f = .ok c ∧ fs.map chunk = cs.map .ok := by simpa using h
      simp [passBytes, hc, ih hcs]

/-- A pass feeds the chunks before the first error, and ends in that error. -/
theorem passBytes_of_error {before after : List SourceFile} {f : SourceFile} {chunks : List (List Byte)} {e : HostError}
    (h : before.map chunk = chunks.map .ok) (he : chunk f = .error e) :
    passBytes chunk (before ++ f :: after) = (chunks.flatten, some e) := by
  induction before generalizing chunks with
  | nil =>
    obtain rfl : chunks = [] := by simpa using h
    simp [passBytes, he]
  | cons g gs ih =>
    obtain _ | ⟨c, cs⟩ := chunks
    · simp at h
    · obtain ⟨hc, hcs⟩ : chunk g = .ok c ∧ gs.map chunk = cs.map .ok := by simpa using h
      simp [passBytes, hc, ih hcs]

/-- A pass that ends in no error has fed a chunk of every file. -/
theorem passBytes_none {fs : List SourceFile} {bytes : List Byte} (h : passBytes chunk fs = (bytes, none)) :
    ∃ chunks : List (List Byte), fs.map chunk = chunks.map .ok ∧ bytes = chunks.flatten := by
  induction fs generalizing bytes with
  | nil =>
    cases h
    exact ⟨[], rfl, rfl⟩
  | cons f fs ih =>
    simp only [passBytes] at h
    cases hc : chunk f with
    | error e => simp [hc] at h
    | ok c =>
      simp only [hc, Prod.mk.injEq] at h
      obtain ⟨cs, hcs, hb⟩ := ih (Prod.ext rfl h.2)
      exact ⟨c :: cs, by simp [hc, hcs], by simp [← h.1, hb]⟩

end Sys2Proof.Machine
end

