-- ==== Sys2Proof/Laws/Encoding.lean ====
section
/-! SUPPORT. What the decoder and the encoder do, field by field. -/

namespace Sys2Proof

/-- Everything a word that decodes to a command can be (R59). -/
theorem decode_ok {w : CommandWord} {i : Instr} (h : decode w = .ok i) :
    rsvField w = 0 ∧
      ((opField w = 0x1 ∧ dataField w = 0 ∧ i = .construct) ∨
       (opField w = 0x2 ∧ i = .update (dataField w)) ∨
       (opField w = 0x3 ∧ dataField w = 0 ∧ i = .read)) := by
  unfold decode at h
  split_ifs at h with h1 h2 h3 h4 h5 h6 <;> cases h <;> simp_all

/-- Everything a Reserved word can be (R57, R58, R56). -/
theorem decode_error {w : CommandWord} {r : ReservedReason} (h : decode w = .error r) :
    (r = .rsvNotZero ∧ rsvField w ≠ 0) ∨
    (r = .dataNotZero ∧ rsvField w = 0 ∧ (opField w = 0x1 ∨ opField w = 0x3) ∧ dataField w ≠ 0) ∨
    (r = .reservedOp ∧ rsvField w = 0 ∧ opField w ≠ 0x1 ∧ opField w ≠ 0x2 ∧ opField w ≠ 0x3) := by
  unfold decode at h
  split_ifs at h with h1 h2 h3 h4 h5 h6 <;> cases h <;> simp_all

@[simp] theorem isReserved_of_ok {w : CommandWord} {i : Instr} (h : decode w = .ok i) : isReserved w = false := by
  simp [isReserved, h]

@[simp] theorem isReserved_of_error {w : CommandWord} {r : ReservedReason} (h : decode w = .error r) :
    isReserved w = true := by
  simp [isReserved, h]

/-- The fields of an UPDATE's word (R58). -/
theorem fields_encode_update (b : Byte) :
    opField (encode (.update b)) = 0x2 ∧ rsvField (encode (.update b)) = 0 ∧ dataField (encode (.update b)) = b := by
  refine ⟨?_, ?_, ?_⟩ <;> apply BitVec.eq_of_getLsbD_eq <;> intro i hi <;>
    simp only [opField, rsvField, dataField, encode, BitVec.getLsbD_extractLsb', BitVec.getLsbD_or, BitVec.getLsbD_setWidth] <;>
    interval_cases i <;> simp

end Sys2Proof
end

