-- ==== Sys2Proof/Laws/State.lean ====
section
/-! SUPPORT. One lemma per field per update of the state, so that no proof unfolds a record update. -/

namespace Sys2Proof.Machine

variable (s : State)

/-! ### writeAcc -/

@[simp] theorem State.writeAcc_params (v : Word) : (s.writeAcc v).params = s.params := rfl
@[simp] theorem State.writeAcc_acc (v : Word) : (s.writeAcc v).acc = v := rfl
@[simp] theorem State.writeAcc_table (v : Word) : (s.writeAcc v).table = s.table := rfl
@[simp] theorem State.writeAcc_constructed (v : Word) : (s.writeAcc v).constructed = s.constructed := rfl
@[simp] theorem State.writeAcc_fault (v : Word) : (s.writeAcc v).fault = s.fault := rfl
@[simp] theorem State.writeAcc_cause (v : Word) : (s.writeAcc v).cause = s.cause := rfl
@[simp] theorem State.writeAcc_faultCmd (v : Word) : (s.writeAcc v).faultCmd = s.faultCmd := rfl
@[simp] theorem State.writeAcc_responses (v : Word) : (s.writeAcc v).responses = s.responses := rfl
@[simp] theorem State.writeAcc_delivered (v : Word) : (s.writeAcc v).delivered = s.delivered := rfl
@[simp] theorem State.writeAcc_accepted (v : Word) : (s.writeAcc v).accepted = s.accepted := rfl
@[simp] theorem State.writeAcc_inbox (v : Word) : (s.writeAcc v).inbox = s.inbox := rfl
@[simp] theorem State.writeAcc_resets (v : Word) : (s.writeAcc v).resets = s.resets := rfl

/-! ### writeTable -/

@[simp] theorem State.writeTable_params (t : Table) : (s.writeTable t).params = s.params := rfl
@[simp] theorem State.writeTable_acc (t : Table) : (s.writeTable t).acc = s.acc := rfl
@[simp] theorem State.writeTable_table (t : Table) : (s.writeTable t).table = t := rfl
@[simp] theorem State.writeTable_constructed (t : Table) : (s.writeTable t).constructed = s.constructed := rfl
@[simp] theorem State.writeTable_fault (t : Table) : (s.writeTable t).fault = s.fault := rfl
@[simp] theorem State.writeTable_cause (t : Table) : (s.writeTable t).cause = s.cause := rfl
@[simp] theorem State.writeTable_faultCmd (t : Table) : (s.writeTable t).faultCmd = s.faultCmd := rfl
@[simp] theorem State.writeTable_responses (t : Table) : (s.writeTable t).responses = s.responses := rfl
@[simp] theorem State.writeTable_delivered (t : Table) : (s.writeTable t).delivered = s.delivered := rfl
@[simp] theorem State.writeTable_accepted (t : Table) : (s.writeTable t).accepted = s.accepted := rfl
@[simp] theorem State.writeTable_inbox (t : Table) : (s.writeTable t).inbox = s.inbox := rfl
@[simp] theorem State.writeTable_resets (t : Table) : (s.writeTable t).resets = s.resets := rfl

/-! ### setConstructed -/

@[simp] theorem State.setConstructed_params : (s.setConstructed).params = s.params := rfl
@[simp] theorem State.setConstructed_acc : (s.setConstructed).acc = s.acc := rfl
@[simp] theorem State.setConstructed_table : (s.setConstructed).table = s.table := rfl
@[simp] theorem State.setConstructed_constructed : (s.setConstructed).constructed = true := rfl
@[simp] theorem State.setConstructed_fault : (s.setConstructed).fault = s.fault := rfl
@[simp] theorem State.setConstructed_cause : (s.setConstructed).cause = s.cause := rfl
@[simp] theorem State.setConstructed_faultCmd : (s.setConstructed).faultCmd = s.faultCmd := rfl
@[simp] theorem State.setConstructed_responses : (s.setConstructed).responses = s.responses := rfl
@[simp] theorem State.setConstructed_delivered : (s.setConstructed).delivered = s.delivered := rfl
@[simp] theorem State.setConstructed_accepted : (s.setConstructed).accepted = s.accepted := rfl
@[simp] theorem State.setConstructed_inbox : (s.setConstructed).inbox = s.inbox := rfl
@[simp] theorem State.setConstructed_resets : (s.setConstructed).resets = s.resets := rfl

/-! ### emitResponse -/

@[simp] theorem State.emitResponse_params (v : Word) : (s.emitResponse v).params = s.params := rfl
@[simp] theorem State.emitResponse_acc (v : Word) : (s.emitResponse v).acc = s.acc := rfl
@[simp] theorem State.emitResponse_table (v : Word) : (s.emitResponse v).table = s.table := rfl
@[simp] theorem State.emitResponse_constructed (v : Word) : (s.emitResponse v).constructed = s.constructed := rfl
@[simp] theorem State.emitResponse_fault (v : Word) : (s.emitResponse v).fault = s.fault := rfl
@[simp] theorem State.emitResponse_cause (v : Word) : (s.emitResponse v).cause = s.cause := rfl
@[simp] theorem State.emitResponse_faultCmd (v : Word) : (s.emitResponse v).faultCmd = s.faultCmd := rfl
@[simp] theorem State.emitResponse_responses (v : Word) : (s.emitResponse v).responses = s.responses ++ [v] := rfl
@[simp] theorem State.emitResponse_delivered (v : Word) : (s.emitResponse v).delivered = s.delivered := rfl
@[simp] theorem State.emitResponse_accepted (v : Word) : (s.emitResponse v).accepted = s.accepted := rfl
@[simp] theorem State.emitResponse_inbox (v : Word) : (s.emitResponse v).inbox = s.inbox := rfl
@[simp] theorem State.emitResponse_resets (v : Word) : (s.emitResponse v).resets = s.resets := rfl

/-! ### deliverResponse -/

@[simp] theorem State.deliverResponse_params : (s.deliverResponse).params = s.params := rfl
@[simp] theorem State.deliverResponse_acc : (s.deliverResponse).acc = s.acc := rfl
@[simp] theorem State.deliverResponse_table : (s.deliverResponse).table = s.table := rfl
@[simp] theorem State.deliverResponse_constructed : (s.deliverResponse).constructed = s.constructed := rfl
@[simp] theorem State.deliverResponse_fault : (s.deliverResponse).fault = s.fault := rfl
@[simp] theorem State.deliverResponse_cause : (s.deliverResponse).cause = s.cause := rfl
@[simp] theorem State.deliverResponse_faultCmd : (s.deliverResponse).faultCmd = s.faultCmd := rfl
@[simp] theorem State.deliverResponse_responses : (s.deliverResponse).responses = s.responses.tail := rfl
@[simp] theorem State.deliverResponse_delivered : (s.deliverResponse).delivered = s.delivered ++ s.responses.head?.toList := rfl
@[simp] theorem State.deliverResponse_accepted : (s.deliverResponse).accepted = s.accepted := rfl
@[simp] theorem State.deliverResponse_inbox : (s.deliverResponse).inbox = s.inbox := rfl
@[simp] theorem State.deliverResponse_resets : (s.deliverResponse).resets = s.resets := rfl

/-! ### withInbox -/

@[simp] theorem State.withInbox_params (rest : List HostMove) : (s.withInbox rest).params = s.params := rfl
@[simp] theorem State.withInbox_acc (rest : List HostMove) : (s.withInbox rest).acc = s.acc := rfl
@[simp] theorem State.withInbox_table (rest : List HostMove) : (s.withInbox rest).table = s.table := rfl
@[simp] theorem State.withInbox_constructed (rest : List HostMove) : (s.withInbox rest).constructed = s.constructed := rfl
@[simp] theorem State.withInbox_fault (rest : List HostMove) : (s.withInbox rest).fault = s.fault := rfl
@[simp] theorem State.withInbox_cause (rest : List HostMove) : (s.withInbox rest).cause = s.cause := rfl
@[simp] theorem State.withInbox_faultCmd (rest : List HostMove) : (s.withInbox rest).faultCmd = s.faultCmd := rfl
@[simp] theorem State.withInbox_responses (rest : List HostMove) : (s.withInbox rest).responses = s.responses := rfl
@[simp] theorem State.withInbox_delivered (rest : List HostMove) : (s.withInbox rest).delivered = s.delivered := rfl
@[simp] theorem State.withInbox_accepted (rest : List HostMove) : (s.withInbox rest).accepted = s.accepted := rfl
@[simp] theorem State.withInbox_inbox (rest : List HostMove) : (s.withInbox rest).inbox = rest := rfl
@[simp] theorem State.withInbox_resets (rest : List HostMove) : (s.withInbox rest).resets = s.resets := rfl

/-! ### accept -/

@[simp] theorem State.accept_params (w : CommandWord) (rest : List HostMove) : (s.accept w rest).params = s.params := rfl
@[simp] theorem State.accept_acc (w : CommandWord) (rest : List HostMove) : (s.accept w rest).acc = s.acc := rfl
@[simp] theorem State.accept_table (w : CommandWord) (rest : List HostMove) : (s.accept w rest).table = s.table := rfl
@[simp] theorem State.accept_constructed (w : CommandWord) (rest : List HostMove) : (s.accept w rest).constructed = s.constructed := rfl
@[simp] theorem State.accept_fault (w : CommandWord) (rest : List HostMove) : (s.accept w rest).fault = s.fault := rfl
@[simp] theorem State.accept_cause (w : CommandWord) (rest : List HostMove) : (s.accept w rest).cause = s.cause := rfl
@[simp] theorem State.accept_faultCmd (w : CommandWord) (rest : List HostMove) : (s.accept w rest).faultCmd = s.faultCmd := rfl
@[simp] theorem State.accept_responses (w : CommandWord) (rest : List HostMove) : (s.accept w rest).responses = s.responses := rfl
@[simp] theorem State.accept_delivered (w : CommandWord) (rest : List HostMove) : (s.accept w rest).delivered = s.delivered := rfl
@[simp] theorem State.accept_accepted (w : CommandWord) (rest : List HostMove) : (s.accept w rest).accepted = s.accepted ++ [w] := rfl
@[simp] theorem State.accept_inbox (w : CommandWord) (rest : List HostMove) : (s.accept w rest).inbox = rest := rfl
@[simp] theorem State.accept_resets (w : CommandWord) (rest : List HostMove) : (s.accept w rest).resets = s.resets := rfl

/-! ### raiseFault -/

@[simp] theorem State.raiseFault_params (c : Cause) (w : CommandWord) : (s.raiseFault c w).params = s.params := rfl
@[simp] theorem State.raiseFault_acc (c : Cause) (w : CommandWord) : (s.raiseFault c w).acc = s.acc := rfl
@[simp] theorem State.raiseFault_table (c : Cause) (w : CommandWord) : (s.raiseFault c w).table = s.table := rfl
@[simp] theorem State.raiseFault_constructed (c : Cause) (w : CommandWord) : (s.raiseFault c w).constructed = s.constructed := rfl
@[simp] theorem State.raiseFault_fault (c : Cause) (w : CommandWord) : (s.raiseFault c w).fault = true := rfl
@[simp] theorem State.raiseFault_cause (c : Cause) (w : CommandWord) : (s.raiseFault c w).cause = c := rfl
@[simp] theorem State.raiseFault_faultCmd (c : Cause) (w : CommandWord) : (s.raiseFault c w).faultCmd = w := rfl
@[simp] theorem State.raiseFault_responses (c : Cause) (w : CommandWord) : (s.raiseFault c w).responses = s.responses := rfl
@[simp] theorem State.raiseFault_delivered (c : Cause) (w : CommandWord) : (s.raiseFault c w).delivered = s.delivered := rfl
@[simp] theorem State.raiseFault_accepted (c : Cause) (w : CommandWord) : (s.raiseFault c w).accepted = s.accepted := rfl
@[simp] theorem State.raiseFault_inbox (c : Cause) (w : CommandWord) : (s.raiseFault c w).inbox = s.inbox := rfl
@[simp] theorem State.raiseFault_resets (c : Cause) (w : CommandWord) : (s.raiseFault c w).resets = s.resets := rfl

/-! ### hardwareReset -/

@[simp] theorem State.hardwareReset_params : (s.hardwareReset).params = s.params := rfl
@[simp] theorem State.hardwareReset_acc : (s.hardwareReset).acc = Config.accAfterReset (s.resets + 1) := rfl
@[simp] theorem State.hardwareReset_table : (s.hardwareReset).table = Table.ofEntries (Config.tableAfterReset (s.resets + 1)) := rfl
@[simp] theorem State.hardwareReset_constructed : (s.hardwareReset).constructed = false := rfl
@[simp] theorem State.hardwareReset_fault : (s.hardwareReset).fault = false := rfl
@[simp] theorem State.hardwareReset_cause : (s.hardwareReset).cause = .noFault := rfl
@[simp] theorem State.hardwareReset_faultCmd : (s.hardwareReset).faultCmd = 0x0000 := rfl
@[simp] theorem State.hardwareReset_responses : (s.hardwareReset).responses = [] := rfl
@[simp] theorem State.hardwareReset_delivered : (s.hardwareReset).delivered = s.delivered := rfl
@[simp] theorem State.hardwareReset_accepted : (s.hardwareReset).accepted = [] := rfl
@[simp] theorem State.hardwareReset_inbox : (s.hardwareReset).inbox = s.inbox := rfl
@[simp] theorem State.hardwareReset_resets : (s.hardwareReset).resets = s.resets + 1 := rfl

end Sys2Proof.Machine
end

