-- ==== Sys2Proof/Laws/Ops.lean ====
section
/-! SUPPORT. For each shared operation, once, what it can do: the two gates of the commands' pseudocode, the accepted word, the host's
next move, and reading a table. -/

namespace Sys2Proof.Machine

/-! ### The gates -/

theorem whenRunning_of_running {s : State} {e : Host.Outcome State Fault Refusal} (h : s.fault = false) :
    whenRunning s e = e := by
  simp [whenRunning, h]

theorem whenRunning_of_halted {s : State} {e : Host.Outcome State Fault Refusal} (h : s.fault = true) :
    whenRunning s e = .fault (.halted s.cause) := by
  simp [whenRunning, h]

/-- A gated command that answers a next state was running, and the answer is its effect's. -/
theorem whenRunning_next {s t : State} {e : Host.Outcome State Fault Refusal} (h : whenRunning s e = .next t) :
    s.fault = false ∧ e = .next t := by
  cases hf : s.fault
  · exact ⟨rfl, by rwa [whenRunning_of_running hf] at h⟩
  · rw [whenRunning_of_halted hf] at h
    cases h

theorem whenConstructed_of_constructed {s : State} {w : CommandWord} {e : Host.Outcome State Fault Refusal}
    (h : s.constructed = true) : whenConstructed s w e = e := by
  simp [whenConstructed, h]

theorem whenConstructed_of_not {s : State} {w : CommandWord} {e : Host.Outcome State Fault Refusal}
    (h : s.constructed = false) : whenConstructed s w e = .next (s.raiseFault .notConstructed w) := by
  simp [whenConstructed, h]

/-- Behind the CONSTRUCTED gate there is the effect, or NotConstructed. -/
theorem whenConstructed_next {s t : State} {w : CommandWord} {e : Host.Outcome State Fault Refusal}
    (h : whenConstructed s w e = .next t) :
    (s.constructed = true ∧ e = .next t) ∨ (s.constructed = false ∧ t = s.raiseFault .notConstructed w) := by
  cases hc : s.constructed
  · rw [whenConstructed_of_not hc] at h
    cases h
    exact .inr ⟨rfl, rfl⟩
  · exact .inl ⟨rfl, by rwa [whenConstructed_of_constructed hc] at h⟩

/-! ### Tables -/

@[simp] theorem readTable_ofEntries (f : Byte → Word) (i : Byte) : readTable (Table.ofEntries f) i = f i := by
  simp [readTable, Table.ofEntries]

/-- Two tables that read alike at every index are equal. -/
theorem table_ext {t u : Table} (h : ∀ i, readTable t i = readTable u i) : t = u := by
  apply Vector.ext
  intro i hi
  have hb := h (BitVec.ofNat 8 i)
  have hm : i % 256 = i := Nat.mod_eq_of_lt hi
  simpa [readTable, hm] using hb

/-! ### Accepted words and the host's moves -/

theorem runWord_ok {run : Instr → State → Host.Outcome State Fault Refusal} {w : CommandWord} {i : Instr} {s : State}
    (h : decode w = .ok i) : runWord run w s = run i s := by
  simp [runWord, h]

theorem runWord_reserved {run : Instr → State → Host.Outcome State Fault Refusal} {w : CommandWord} {r : ReservedReason}
    {s : State} (h : decode w = .error r) : runWord run w s = .next (s.raiseFault .reservedCommand w) := by
  simp [runWord, h]

/-- An accepted word that answers a next state is a command with its effect, or Reserved with fault entry. -/
theorem runWord_next {run : Instr → State → Host.Outcome State Fault Refusal} {w : CommandWord} {s t : State}
    (h : runWord run w s = .next t) :
    (∃ i, decode w = .ok i ∧ run i s = .next t) ∨
    (∃ r, decode w = .error r ∧ t = s.raiseFault .reservedCommand w) := by
  cases hd : decode w with
  | ok i => exact .inl ⟨i, rfl, by rwa [runWord_ok hd] at h⟩
  | error r =>
    rw [runWord_reserved hd] at h
    cases h
    exact .inr ⟨r, rfl, rfl⟩

/-- Everything a command that answers a next state can be (R75, R85, R100, R133). -/
theorem exec_next {i : Instr} {s t : State} (h : exec i s = .next t) :
    s.fault = false ∧
    ((i = .construct ∧ t = ((s.writeTable (tableGen s.params.pPoly)).writeAcc s.params.pInit).setConstructed) ∨
     (∃ b, i = .update b ∧ s.constructed = true ∧ t = s.writeAcc (foldStep s.table s.acc b)) ∨
     (i = .read ∧ s.constructed = true ∧ t = s.emitResponse s.acc) ∨
     (((∃ b, i = .update b) ∨ i = .read) ∧ s.constructed = false ∧ t = s.raiseFault .notConstructed (encode i))) := by
  cases i with
  | construct =>
    obtain ⟨hf, h⟩ := whenRunning_next h
    cases h
    exact ⟨hf, .inl ⟨rfl, rfl⟩⟩
  | update b =>
    obtain ⟨hf, h⟩ := whenRunning_next h
    rcases whenConstructed_next h with ⟨hc, h⟩ | ⟨hc, rfl⟩
    · cases h
      exact ⟨hf, .inr (.inl ⟨b, rfl, hc, rfl⟩)⟩
    · exact ⟨hf, .inr (.inr (.inr ⟨.inl ⟨b, rfl⟩, hc, rfl⟩))⟩
  | read =>
    obtain ⟨hf, h⟩ := whenRunning_next h
    rcases whenConstructed_next h with ⟨hc, h⟩ | ⟨hc, rfl⟩
    · cases h
      exact ⟨hf, .inr (.inr (.inl ⟨rfl, hc, rfl⟩))⟩
    · exact ⟨hf, .inr (.inr (.inr ⟨.inr rfl, hc, rfl⟩))⟩

/-- The commands before the first other move are what a halted block passes over. -/
theorem haltedMove_offers (ws : List CommandWord) (rest : List HostMove) :
    haltedMove (offers ws ++ rest) =
      match haltedMove rest with
      | .stuck => .stuck
      | .take rest' => .take (offers ws ++ rest')
      | .reset rest' => .reset rest' := by
  induction ws with
  | nil => cases h : haltedMove rest <;> simp [offers, h]
  | cons w ws ih =>
    simp only [offers, List.map_cons, List.cons_append, haltedMove] at ih ⊢
    rw [ih]
    cases haltedMove rest <;> rfl

/-- What a halted block answers: nothing but commands is offered, or the commands `ws` and then the move it answers. -/
theorem haltedMove_cases (moves : List HostMove) :
    (haltedMove moves = .stuck ∧ ∃ ws, moves = offers ws) ∨
    (∃ ws rest, moves = offers ws ++ .takeResponse :: rest ∧ haltedMove moves = .take (offers ws ++ rest)) ∨
    (∃ ws rest, moves = offers ws ++ .reset :: rest ∧ haltedMove moves = .reset rest) := by
  induction moves with
  | nil => exact .inl ⟨rfl, [], rfl⟩
  | cons m moves ih =>
    cases m with
    | takeResponse => exact .inr (.inl ⟨[], moves, rfl, rfl⟩)
    | reset => exact .inr (.inr ⟨[], moves, rfl, rfl⟩)
    | command w =>
      rcases ih with ⟨h, ws, rfl⟩ | ⟨ws, rest, rfl, h⟩ | ⟨ws, rest, rfl, h⟩
      · exact .inl ⟨by simp [haltedMove, h], w :: ws, rfl⟩
      · exact .inr (.inl ⟨w :: ws, rest, rfl, by simp [offers] at h; simp [haltedMove, h, offers]⟩)
      · exact .inr (.inr ⟨w :: ws, rest, rfl, by simp [haltedMove, h]⟩)

/-- Everything a step that answers a next state can be (R29, R136, R150), for any commands `run` and any reset `rst`. -/
theorem stepWith_next {run : Instr → State → Host.Outcome State Fault Refusal} {rst : State → State} {s t : State}
    (h : stepWith run rst s = .next t) :
    (s.fault = false ∧ s.inbox = [] ∧ t = s) ∨
    (∃ ws rest, s.inbox = offers ws ++ .takeResponse :: rest ∧ (ws = [] ∨ s.fault = true) ∧
      t = (s.withInbox (offers ws ++ rest)).deliverResponse) ∨
    (∃ ws rest, s.inbox = offers ws ++ .reset :: rest ∧ (ws = [] ∨ s.fault = true) ∧ t = rst (s.withInbox rest)) ∨
    (∃ w rest, s.fault = false ∧ s.inbox = .command w :: rest ∧ runWord run w (s.accept w rest) = .next t) := by
  cases hf : s.fault with
  | true =>
    simp only [stepWith, hf, if_true, stepHalted] at h
    rcases haltedMove_cases s.inbox with ⟨hm, _⟩ | ⟨ws, rest, hi, hm⟩ | ⟨ws, rest, hi, hm⟩ <;> rw [hm] at h <;> cases h
    · exact .inr (.inl ⟨ws, rest, hi, .inr rfl, rfl⟩)
    · exact .inr (.inr (.inl ⟨ws, rest, hi, .inr rfl, rfl⟩))
  | false =>
    simp only [stepWith, hf, Bool.false_eq_true, if_false, stepRunning] at h
    cases hi : s.inbox with
    | nil =>
      rw [hi] at h
      cases h
      exact .inl ⟨rfl, rfl, rfl⟩
    | cons m rest =>
      rw [hi] at h
      cases m with
      | takeResponse =>
        cases h
        exact .inr (.inl ⟨[], rest, rfl, .inl rfl, rfl⟩)
      | reset =>
        cases h
        exact .inr (.inr (.inl ⟨[], rest, rfl, .inl rfl, rfl⟩))
      | command w => exact .inr (.inr (.inr ⟨w, rest, rfl, rfl, h⟩))

end Sys2Proof.Machine
end

