-- ==== Sys2Proof/Laws/PerInstr.lean ====
section
/-! SUPPORT. Statements about every command as syntax, one lemma per command: RSV of a command's word is 0 (R57). -/

namespace Sys2Proof.Laws.ReservedBitsZero

/-- RSV must be 0 in every command (R57). -/
def Statement (i : Instr) : Prop := rsvField (encode i) = 0

theorem construct : Statement .construct := by
  unfold Statement
  decide

theorem update (b : Byte) : Statement (.update b) := (fields_encode_update b).2.1

theorem read : Statement .read := by
  unfold Statement
  decide

end Sys2Proof.Laws.ReservedBitsZero
end

