-- ==== Sys2Proof/Laws/Run.lean ====
section
/-! SUPPORT. Runs: `runSteps` is the host's run of this machine, and how a run over `n` steps splits. -/

namespace Sys2Proof.Machine

/-- `runSteps` is `Host.Core.run` of the machine behind the host's interface. -/
theorem core_run_eq_runSteps (n : Nat) (s : State) : Host.Core.run Sys2Proof.core n s = runSteps n s := by
  induction n generalizing s with
  | zero => rfl
  | succ n ih =>
    have hs : Sys2Proof.core.step s = step s := rfl
    simp only [Host.Core.run, runSteps, hs]
    cases step s with
    | next t => exact ih t
    | fault r => rfl
    | refused r => rfl

/-- A run whose first step answers `t` goes on from `t`. -/
theorem runSteps_succ_of_next {n : Nat} {s t : State} (h : step s = .next t) : runSteps (n + 1) s = runSteps n t := by
  simp [runSteps, h]

/-- A run that answers a next state can be continued. -/
theorem runSteps_add_of_next {n m : Nat} {s t : State} (h : runSteps n s = .next t) :
    runSteps (n + m) s = runSteps m t := by
  induction n generalizing s with
  | zero =>
    cases h
    simp
  | succ n ih =>
    cases hs : step s with
    | next u =>
      rw [runSteps_succ_of_next hs] at h
      rw [Nat.add_right_comm, runSteps_succ_of_next hs]
      exact ih h
    | fault r => simp [runSteps, hs] at h
    | refused r => simp [runSteps, hs] at h

end Sys2Proof.Machine
end

