-- ==== Sys2Proof/Tests/Slice0.lean ====
section
/-! SUPPORT. Tests. Expected values are those of spec/95_test_vectors.md (V1 to V8, P1 to P6) unless a comment says otherwise; the
witnesses at the end meet the hypotheses of the statements, one theorem or more for each statement that has any. -/

namespace Sys2Proof.Tests

open Sys2Proof Sys2Proof.Machine

/-! ### Well-formedness: an ill-formed term for each check (R63, R64, R66) -/

theorem test_update_operand_256_refused : (AsmLine.update 256).wellFormed = false := by decide
theorem test_u64le_operand_too_wide_refused : (AsmLine.updateU64le (2 ^ 64)).wellFormed = false := by decide
theorem test_bytes_operand_256_refused : (AsmLine.updateBytes [0, 256]).wellFormed = false := by decide
theorem test_update_operand_255_accepted : (AsmLine.update 255).wellFormed = true := by decide

/-! ### Decoding: words written out bit by bit from R55 and R56 (OP, RSV, DATA), and V6 -/

theorem test_decode_construct : decode 0b0001_0000_00000000 = .ok .construct := by decide
theorem test_decode_update_31 : decode 0b0010_0000_00110001 = .ok (.update 0x31) := by decide
theorem test_decode_update_ff : decode 0b0010_0000_11111111 = .ok (.update 0xFF) := by decide
theorem test_decode_read : decode 0b0011_0000_00000000 = .ok .read := by decide
theorem test_decode_rsv : decode 0x2100 = .error .rsvNotZero := by decide
theorem test_decode_construct_data : decode 0x1001 = .error .dataNotZero := by decide
theorem test_decode_read_data : decode 0x3001 = .error .dataNotZero := by decide
theorem test_decode_op_zero : decode 0x0000 = .error .reservedOp := by decide
theorem test_decode_op_four : decode 0x4000 = .error .reservedOp := by decide
theorem test_decode_table_word : decodeTableWord 16 0x2031 = some (.update 0x31) := by decide
theorem test_encode_update : encode (.update 0xFF) = 0x20FF := by decide

/-! ### The table (V1, V2) -/

theorem test_table_entry_01 : tableEntry 0x92c64265d32139a4 0x01 = 0x0809e8a2969451e9 := by decide
theorem test_table_entry_ff : tableEntry 0x92c64265d32139a4 0xFF = 0x07f8a79e7273cf58 := by decide
theorem test_table_entry_ce : tableEntry 0x92c64265d32139a4 0xCE = 0xabde558cf96ace48 := by decide
/-- V2: the other parameter corner. -/
theorem test_table_entry_ones : tableEntry 0xFFFFFFFFFFFFFFFF 0x01 = 0x0200000000000000 := by decide
theorem test_table_read : readTable (tableGen 0x92c64265d32139a4) 0x80 = 0x92c64265d32139a4 := by decide +kernel

/-! ### Steps -/

/-- The instance after `construct` on the default parameters (P1). -/
def constructed : State :=
  { State.reset with
    acc := 0xFFFFFFFFFFFFFFFF, table := tableGen 0x92c64265d32139a4, constructed := true, accepted := [0x1000] }

/-- The state whose host offers the words `ws` next. -/
def offering (ws : List CommandWord) (s : State) : State := s.withInbox (offers ws)

/-- P4b: halted by 0x2131, with 0x3000 offered and never accepted, and one response not yet taken. -/
def halted : State :=
  { constructed with
    acc := 0xAB21AA73069531B7, fault := true, cause := .reservedCommand, faultCmd := 0x2131, responses := [0x1F2E3D4C56789A0B],
    accepted := [0x1000, 0x3000, 0x2131], inbox := [.command 0x3000, .takeResponse, .reset] }

/-- A view of the next state; nothing where there is none. -/
def viewNext {α : Type} (f : State → α) : Host.Outcome State Fault Refusal → Option α
  | .next s => some (f s)
  | .fault _ => none
  | .refused _ => none

/-- Does the outcome stop with this cause? -/
def stopsWith (c : Cause) : Host.Outcome State Fault Refusal → Bool
  | .next _ => false
  | .fault (.halted c') => decide (c' = c)
  | .refused _ => false

/-- P1. -/
theorem test_construct_loads_acc :
    viewNext (fun t => (t.acc, t.statusPort, t.position)) (step (offering [0x1000] State.reset)) =
      some (0xFFFFFFFFFFFFFFFF, 0x01, 1) := by decide +kernel
/-- R75 example. -/
theorem test_construct_builds_table :
    viewNext (fun t => readTable t.table 0x01) (exec .construct State.reset) = some 0x0809E8A2969451E9 := by decide +kernel
/-- V3, R85 example. -/
theorem test_update_31 : viewNext State.acc (exec (.update 0x31) constructed) = some 0xAB21AA73069531B7 := by decide +kernel
/-- V3: 0x1F2E3D4C56789A0B with b = 0x00. -/
theorem test_update_middle :
    viewNext State.acc (exec (.update 0x00) { constructed with acc := 0x1F2E3D4C56789A0B }) = some 0x584A52CE434805E9 := by
  decide +kernel
/-- V5. -/
theorem test_read_emits :
    viewNext (fun t => (t.responses, t.acc)) (exec .read { constructed with acc := 0x75D4B74F024ECEEA }) =
      some ([0x75D4B74F024ECEEA], 0x75D4B74F024ECEEA) := by decide +kernel
/-- V7: `read` after reset. -/
theorem test_read_before_construct :
    viewNext (fun t => (t.statusPort, t.faultCmd, t.responses)) (step (offering [0x3000] State.reset)) =
      some (0x0A, 0x3000, []) := by decide
/-- P4a. -/
theorem test_update_before_construct :
    viewNext (fun t => (t.statusPort, t.faultCmd)) (step (offering [0x2031] State.reset)) = some (0x0A, 0x2031) := by decide
/-- V7: RSV != 0 beats NotConstructed (R134). -/
theorem test_reserved_before_construct :
    viewNext (fun t => (t.statusPort, t.faultCmd)) (step (offering [0x2100] State.reset)) = some (0x06, 0x2100) := by decide
/-- V7: constructed, ACC unchanged. -/
theorem test_reserved_after_construct :
    viewNext (fun t => (t.statusPort, t.faultCmd, t.acc)) (step (offering [0x3001] constructed)) =
      some (0x07, 0x3001, 0xFFFFFFFFFFFFFFFF) := by decide
/-- R136: the last `read` of P4b is never accepted. -/
theorem test_halted_stops : stopsWith .reservedCommand (step (offering [0x3000] halted)) = true := by decide
/-- R136: a response emitted before the fault is still delivered, and the offered command waits. -/
theorem test_halted_delivers :
    viewNext (fun t => (t.delivered, t.responses, t.inbox)) (step halted) =
      some ([0x1F2E3D4C56789A0B], [], [.command 0x3000, .reset]) := by decide
/-- P4c: hardware reset brings the halted block back. -/
theorem test_halted_reset :
    viewNext (fun t => (t.statusPort, t.faultCmd, t.responses, t.inbox))
      (step { halted with inbox := [.command 0x3000, .reset, .command 0x1000] }) =
      some (0x00, 0x0000, [], [.command 0x1000]) := by decide
/-- The word placed by `withFetchWord` is the first command after reset. -/
theorem test_withFetchWord :
    viewNext (fun t => (t.accepted, t.constructed)) (step (State.reset.withFetchWord 16 0x1000)) = some ([0x1000], true) := by
  decide
theorem test_cause_code_three_refused : Cause.ofCode 3 = none := by decide

/-! ### The assembler (R63 to R67; P3) -/

/-- P2's first lines, with blanks, a comment, and both kinds of number. -/
theorem test_assemble_text :
    assemble "construct ; 0x1000\n\n  update 49\nupdate.bytes 0x32, 51\nread".toList =
      .ok [0x1000, 0x2031, 0x2032, 0x2033, 0x3000] := by decide +kernel
/-- E8, as P3 writes it; the `;` inside the quotes of the second line is text. -/
theorem test_assemble_cstr :
    assemble "update.cstr \"1€.txt\"\nupdate.cstr \";\"".toList =
      .ok [0x2031, 0x20E2, 0x2082, 0x20AC, 0x202E, 0x2074, 0x2078, 0x2074, 0x2000, 0x203B, 0x2000] := by decide +kernel
/-- E6. -/
theorem test_assemble_u32le :
    assemble "update.u32le 3812800233".toList = .ok [0x20E9, 0x20B6, 0x2042, 0x20E3] := by decide +kernel
theorem test_assemble_out_of_range : assemble "update 256".toList = .error .operandOutOfRange := by decide +kernel
theorem test_assemble_upper_case : assemble "READ".toList = .error .unknownMnemonic := by decide +kernel

/-! ### The host's stream (V8, E1, P5) -/

/-- E4. -/
theorem test_filetime_last :
    fileTimeBytes 253402300799 = .ok [0x80, 0xa9, 0x27, 0xd1, 0x5e, 0x5a, 0xc8, 0x24] := by decide +kernel
/-- V8: truncation toward zero, not floor (C6). -/
theorem test_filetime_truncates :
    fileTimeBytes (mkRat (-19) 10) = .ok [0x80, 0xe9, 0xa5, 0xd4, 0xde, 0xb1, 0x9d, 0x01] := by decide +kernel
/-- V8: -11644473600.5 (D19). -/
theorem test_filetime_below_limit :
    fileTimeBytes (mkRat (-116444736005) 10) = .error (.timestampOutOfRange (mkRat (-116444736005) 10)) := by decide +kernel
theorem test_size_wraps : sizeBytes 4294967301 = [0x05, 0x00, 0x00, 0x00] := by decide
/-- E1. -/
theorem test_response_text : responseText 0x1F2E3D4C56789A0B = "1f2e3d4c56789a0b".toList := by decide +kernel
theorem test_response_low_text : responseLowText 0x1F2E3D4C56789A0B = "56789a0b".toList := by decide +kernel

/-- P5's host parameters. -/
def fixtureNames : HostParams :=
  { metadataDir := "VIDEO_TS".toList, designatedFirst := "A.IFO".toList, designatedSecond := "B.IFO".toList }

/-- P5's tree, listed out of order and with a subdirectory, which is not in the file set (R109). -/
def fixture : HostTree :=
  { rootPath := "disc".toList, root := .directory, metadataDir := .directory,
    entries := some [⟨.directory, some "SUB".toList, .recorded 0, some 0, none⟩,
      ⟨.regularFile, some "B.IFO".toList, .recorded 1000000000, some 2, some [0x00, 0x01]⟩,
      ⟨.regularFile, some "A.IFO".toList, .recorded 0, some 4, some [0x41, 0x42, 0x43, 0x44]⟩] }

/-- A file of P5's tree, with what its size and content are asked for. -/
def sourceFile (size : Option Nat) (content : Option (List Byte)) : SourceFile :=
  ⟨fixture.entryPath fixtureNames (some "A.IFO".toList), "A.IFO".toList, some 0, size, content⟩

/-- P5's words. -/
theorem test_fixture_words :
    encodeAll (compute fixtureNames fixture).issued =
      [0x1000, 0x2000, 0x2080, 0x203e, 0x20d5, 0x20de, 0x20b1, 0x209d, 0x2001, 0x2004, 0x2000, 0x2000, 0x2000, 0x2041, 0x202e,
       0x2049, 0x2046, 0x204f, 0x2000, 0x2000, 0x2080, 0x20ff, 0x2044, 0x20d1, 0x2038, 0x20c1, 0x2001, 0x2002, 0x2000, 0x2000,
       0x2000, 0x2042, 0x202e, 0x2049, 0x2046, 0x204f, 0x2000, 0x2041, 0x2042, 0x2043, 0x2044, 0x2000, 0x2001, 0x3000] := by
  decide +kernel
/-- E9. -/
theorem test_content_incomplete :
    contentBytes (sourceFile (some 100000) (some (List.replicate 500 0))) =
      .error (.contentReadIncomplete 65536 (some 500)) := by decide +kernel
/-- R122 by the model's mapping (notes/assumptions/21.md): the failed read of an empty file is an error; a read that brings its 0 bytes
is none (R117). -/
theorem test_content_failed_of_size_zero :
    contentBytes (sourceFile (some 0) none) = .error (.contentReadIncomplete 0 none) ∧
      contentBytes (sourceFile (some 0) (some [])) = .ok [] := by decide +kernel
/-- E10. -/
theorem test_metadata_dir_missing :
    compute fixtureNames { fixture with metadataDir := .missing } =
      ⟨[], .stopped (.aborted (.pathNotFound (.metadataDir "disc".toList "VIDEO_TS".toList)))⟩ := by decide +kernel
/-- R122 by the model's mapping (notes/assumptions/21.md): A.IFO's size cannot be read, so nothing of its record is fed. -/
theorem test_unreadable_size_aborts :
    compute fixtureNames
        { fixture with entries := some [⟨.regularFile, some "A.IFO".toList, .recorded 0, none, none⟩] } =
      ⟨[.construct], .stopped (.aborted (.pathNotFound
        (.entry "disc".toList "VIDEO_TS".toList (some "A.IFO".toList))))⟩ := by decide +kernel
/-- I11: a symbolic link has no stream. -/
theorem test_symbolic_link_unsupported :
    (compute fixtureNames { fixture with entries := some [⟨.symbolicLink, some "A.IFO".toList, .recorded 0, some 4, none⟩] }).ended =
      .stopped (.unsupported .notRegularFile) := by decide +kernel

/-! ### Witnesses -/

theorem witness_DecodeAndEncodeAgree :
    (Instr.update 0xFF).wellFormed = true ∧ decode 0x20FF = .ok (.update 0xFF) := by decide

theorem witness_ConstructBuildsTableAndLoadsAcc : State.reset.fault = false := by decide

/-- Constructed and not faulted. -/
theorem witness_ready : constructed.fault = false ∧ constructed.constructed = true := by decide
theorem witness_UpdateFoldsOneByte : constructed.fault = false ∧ constructed.constructed = true := witness_ready
theorem witness_ReadEmitsAcc : constructed.fault = false ∧ constructed.constructed = true := witness_ready
theorem witness_ReadCanBeRepeated : constructed.fault = false ∧ constructed.constructed = true := witness_ready

/-- The state of P1 meets the invariant. -/
theorem constructed_inv : Inv constructed := by
  refine ⟨by simp [StatusConsistent, constructed, State.reset], fun _ => rfl, by simp [FaultRecorded, constructed, State.reset],
    fun _ => ?_, fun h => by simp [constructed] at h, ?_⟩
  · decide
  · exact List.nil_suffix

theorem witness_ConstructForgetsEarlierInput :
    constructed.fault = false ∧ Inv constructed ∧ constructed.constructed = true ∧
      constructed.params = constructed.params :=
  ⟨by decide, constructed_inv, by decide, rfl⟩

theorem witness_CommandsBeforeConstructFault_update :
    (offering [0x20FF] State.reset).fault = false ∧ (offering [0x20FF] State.reset).constructed = false ∧
      (offering [0x20FF] State.reset).inbox = .command 0x20FF :: [] ∧ (0x20FF : CommandWord) &&& 0xFF00 = 0x2000 := by decide
theorem witness_CommandsBeforeConstructFault_read :
    (offering [0x3000] State.reset).fault = false ∧ (offering [0x3000] State.reset).constructed = false ∧
      (offering [0x3000] State.reset).inbox = .command 0x3000 :: [] := by decide
theorem witness_CommandsBeforeConstructFault_construct :
    (offering [0x1000] State.reset).fault = false ∧ (offering [0x1000] State.reset).constructed = false ∧
      (offering [0x1000] State.reset).inbox = .command 0x1000 :: [] := by decide

/-- OP = 0xF, OP = 0x0, RSV = 1, and DATA != 0 on READ, each on a state that meets the rest. -/
theorem witness_ReservedWordsFault :
    (offering [0xF000] constructed).fault = false ∧ (offering [0xF000] constructed).inbox = .command 0xF000 :: [] ∧
      4 ≤ ((0xF000 : CommandWord).extractLsb' 12 4).toNat ∧ (0x0000 : CommandWord).extractLsb' 12 4 = 0x0 ∧
      (0x2100 : CommandWord).extractLsb' 8 4 ≠ 0 ∧
      (0x3001 : CommandWord).extractLsb' 12 4 = 0x3 ∧ (0x3001 : CommandWord).extractLsb' 0 8 ≠ 0 := by decide

theorem witness_UpdateSequenceFoldsInOrder :
    (offering [0x2031, 0x2032] constructed).fault = false ∧ (offering [0x2031, 0x2032] constructed).constructed = true ∧
      (offering [0x2031, 0x2032] constructed).inbox = offers (encodeAll (feed [0x31, 0x32])) ++ [] := by decide

theorem witness_StepRunsTheDecodedCommand :
    (offering [0x3000] constructed).fault = false ∧ (offering [0x3000] constructed).inbox = .command 0x3000 :: [] ∧
      decode 0x3000 = .ok .read := by decide

theorem witness_RunningBlockAlwaysSteps :
    (offering [0x4000] constructed).fault = false ∧ (offering [0x4000] constructed).inbox = .command 0x4000 :: [] := by decide

theorem witness_HaltedBlockAcceptsNoCommand :
    (offering [0x3000] halted).fault = true ∧ ∀ m ∈ (offering [0x3000] halted).inbox, ∃ w, m = .command w :=
  ⟨by decide, fun m hm => ⟨0x3000, by simpa [offering, offers] using hm⟩⟩

theorem witness_TakenResponseIsDelivered_halted :
    halted.inbox = offers [0x3000] ++ .takeResponse :: [.reset] ∧ halted.fault = true ∧
      halted.responses = 0x1F2E3D4C56789A0B :: [] := by decide
theorem witness_TakenResponseIsDelivered_none :
    (constructed.withInbox [.takeResponse]).inbox = offers [] ++ .takeResponse :: [] ∧
      (constructed.withInbox [.takeResponse]).responses = [] := by decide

theorem witness_IdleBlockWaits : constructed.fault = false ∧ constructed.inbox = [] := by decide

/-- The halted block answers the take first, whatever stands behind it. -/
theorem halted_not_resets : ¬ HostResets halted := by
  rintro ⟨ws, rest, -, h⟩
  rcases ws with _ | ⟨w, _ | ⟨w', ws⟩⟩ <;> simp [halted, offers] at h
theorem witness_OnlyResetLeavesAFault_stays :
    halted.fault = true ∧ ¬ HostResets halted ∧ ∃ t, step halted = .next t :=
  ⟨by decide, halted_not_resets, _, rfl⟩
theorem witness_OnlyResetLeavesAFault_reset :
    (halted.withInbox [.command 0x3000, .reset]).fault = true ∧
      (halted.withInbox [.command 0x3000, .reset]).inbox = offers [0x3000] ++ .reset :: [] := by decide

theorem witness_HardwareResetClearsControlState_halted :
    (halted.withInbox [.command 0x3000, .reset]).inbox = offers [0x3000] ++ .reset :: [] ∧
      (halted.withInbox [.command 0x3000, .reset]).fault = true := by decide
theorem witness_HardwareResetClearsControlState_running :
    (constructed.withInbox [.reset]).inbox = offers [] ++ .reset :: [] ∧ ([] : List CommandWord) = [] := by decide

/-- A step of each kind, for the statements about every step that answers a next state. -/
theorem witness_step_construct : ∃ t, step (offering [0x1000] State.reset) = .next t := ⟨_, rfl⟩
theorem witness_step_update : ∃ t, step (offering [0x2031] constructed) = .next t := ⟨_, rfl⟩
theorem witness_step_read : ∃ t, step (offering [0x3000] constructed) = .next t := ⟨_, rfl⟩
theorem witness_step_take : ∃ t, step halted = .next t := ⟨_, rfl⟩
theorem witness_step_reset : ∃ t, step (halted.withInbox [.command 0x3000, .reset]) = .next t := ⟨_, rfl⟩
theorem witness_WritersOfAccAndTable : ∃ t, step (offering [0x2031] constructed) = .next t := witness_step_update
theorem witness_ParametersNeverChange : ∃ t, step (offering [0x1000] State.reset) = .next t := witness_step_construct
theorem witness_IndexCountsAcceptedCommands : ∃ t, step (offering [0x3000] constructed) = .next t := witness_step_read
/-- A take on a halted block, with a reset behind it: neither a READ nor a reset is answered. -/
theorem witness_ResponsesKeepTheirOrder_take :
    (∃ t, step halted = .next t) ∧ ¬ HostReads halted ∧ ¬ HostResets halted :=
  ⟨witness_step_take, fun h => absurd h.1 (by decide), halted_not_resets⟩
theorem witness_ResponsesKeepTheirOrder_read :
    (∃ t, step (offering [0x3000] constructed) = .next t) ∧ HostReads (offering [0x3000] constructed) ∧
      ¬ HostTakes (offering [0x3000] constructed) := by
  refine ⟨witness_step_read, ⟨rfl, rfl, [], rfl⟩, ?_⟩
  rintro ⟨ws, rest, -, h⟩
  rcases ws with _ | ⟨w, ws⟩ <;> simp [offering, offers] at h
theorem witness_ResponsesKeepTheirOrder_reset :
    (∃ t, step (halted.withInbox [.command 0x3000, .reset]) = .next t) ∧
      HostResets (halted.withInbox [.command 0x3000, .reset]) :=
  ⟨witness_step_reset, [0x3000], [], .inl rfl, rfl⟩

theorem witness_WritersOfConstructed_set :
    ∃ t, step (offering [0x1000] State.reset) = .next t ∧ (offering [0x1000] State.reset).constructed = false ∧
      t.constructed = true := ⟨_, rfl, by decide, rfl⟩
theorem witness_WritersOfConstructed_cleared :
    ∃ t, step (constructed.withInbox [.reset]) = .next t ∧ (constructed.withInbox [.reset]).constructed = true ∧
      t.constructed = false := ⟨_, rfl, by decide, rfl⟩
theorem witness_WritersOfFaultState :
    ∃ t, step (offering [0x2100] constructed) = .next t ∧ t.fault = true ∧ isReserved 0x2100 = true :=
  ⟨_, rfl, rfl, by decide⟩

theorem witness_EveryStepKeepsTheInvariant :
    ∃ s t, Inv s ∧ s.inbox = [] ∧ step s = .next t := ⟨constructed, _, constructed_inv, by decide, rfl⟩

/-- Two states that differ in ACC and TABLE, before CONSTRUCT. -/
theorem witness_ValuesBeforeConstructAreUnobservable :
    SameToHost State.reset { State.reset with acc := 1, table := tableGen 1 } :=
  ⟨rfl, rfl, rfl, rfl, rfl, rfl, rfl, rfl, rfl, fun h => by simp [State.reset] at h⟩
theorem witness_ReadOnlyTableIsIndistinguishable :
    SameToHost State.reset { State.reset with table := tableGen 0x92c64265d32139a4 } ∧
      RomHolds { State.reset with table := tableGen 0x92c64265d32139a4 } :=
  ⟨⟨rfl, rfl, rfl, rfl, rfl, rfl, rfl, rfl, rfl, fun h => by simp [State.reset] at h⟩, rfl⟩

theorem witness_FingerprintIsTheFoldOfTheStream :
    (∃ fs, fileSet fixtureNames fixture = .ok fs) ∧ (compute fixtureNames fixture).ended = .complete ∧
      (constructed.withInbox (compute fixtureNames fixture).moves).fault = false ∧
      (constructed.withInbox (compute fixtureNames fixture).moves).inbox = (compute fixtureNames fixture).moves :=
  ⟨⟨_, rfl⟩, by decide +kernel, rfl, rfl⟩
theorem witness_CompleteComputationShape : (compute fixtureNames fixture).ended = .complete := by decide +kernel

theorem witness_InstancesAreIndependent : (0 : Nat) ≠ 1 ∧ [State.reset, constructed].length = 2 := by decide
theorem witness_InstancesAreIndependent_next : ∃ t, step (offering [0x3000] constructed) = .next t := witness_step_read
theorem witness_InstancesAreIndependent_stopped : ∀ t, step (offering [0x3000] halted) ≠ .next t := by
  intro t h
  have hv : viewNext (fun _ => ()) (step (offering [0x3000] halted)) = none := by decide
  rw [h] at hv
  cases hv

theorem witness_AssemblerEmitsNoReservedWord :
    assemble "construct\nread".toList = .ok [0x1000, 0x3000] ∧ (0x3000 : CommandWord) ∈ [0x1000, 0x3000] := by decide +kernel
theorem witness_AssemblyLinesExpand :
    255 < 256 ∧ 256 ≥ 256 ∧ 2 ^ 64 - 1 < 2 ^ 64 ∧ 2 ^ 64 ≥ 2 ^ 64 ∧ (∀ b ∈ [0, 255], b < 256) ∧ ∃ b ∈ [0, 256], 256 ≤ b := by
  decide
theorem witness_NameBytesAreUtf8AndZero : ∀ c ∈ ['1', '€'], c.toNat ≠ 0 := by simp

theorem witness_FileTimeBytesInRange_first : (-11644473600 : Rat) ≤ -11644473600 ∧ (-11644473600 : Rat) < 253402300800 := by
  decide +kernel
theorem witness_FileTimeBytesInRange_last : (-11644473600 : Rat) ≤ 253402300799 ∧ (253402300799 : Rat) < 253402300800 := by
  decide +kernel
/-- E5: both values. -/
theorem witness_FileTimeOutOfRangeIsRefused :
    (-11644473601 : Rat) < -11644473600 ∧ (253402300800 : Rat) ≤ 253402300800 ∧
      { sourceFile (some 4) none with creationTime := some 253402300800 }.creationTime = some 253402300800 ∧
      { sourceFile (some 4) none with creationTime := some 253402300800 }.size = some 4 := by decide +kernel
theorem witness_RecordIsTimeThenSizeThenName :
    (sourceFile (some 4) none).creationTime = some 0 ∧ (sourceFile (some 4) none).size = some 4 ∧
      (-11644473600 : Rat) ≤ 0 ∧ (0 : Rat) < 253402300800 := by decide +kernel

theorem witness_ContentIsWholeOrRefused_whole :
    (sourceFile (some 4) (some [1, 2, 3, 4])).size = some 4 ∧
      (sourceFile (some 4) (some [1, 2, 3, 4])).content = some [1, 2, 3, 4] ∧ min 4 65536 ≤ [1, 2, 3, 4].length := by decide
theorem witness_ContentIsWholeOrRefused_short :
    (sourceFile (some 5) (some [1, 2, 3, 4])).size = some 5 ∧
      (sourceFile (some 5) (some [1, 2, 3, 4])).content = some [1, 2, 3, 4] ∧ [1, 2, 3, 4].length < min 5 65536 := by decide
theorem witness_ContentIsWholeOrRefused_none :
    (sourceFile (some 0) none).size = some 0 ∧ (sourceFile (some 0) none).content = none := by decide

theorem witness_IoFailuresAreHostErrors_root : { fixture with root := .unreadable }.root = .unreadable := by decide
theorem witness_IoFailuresAreHostErrors_metadataDir :
    { fixture with metadataDir := .unreadable }.root = .directory ∧
      { fixture with metadataDir := .unreadable }.metadataDir = .unreadable := by decide
theorem witness_IoFailuresAreHostErrors_listing :
    { fixture with entries := none }.root = .directory ∧ { fixture with entries := none }.metadataDir = .directory ∧
      { fixture with entries := none }.entries = none := by decide
theorem witness_IoFailuresAreHostErrors_entry :
    ∃ e, { fixture with entries := some ([] ++ [e]) }.root = .directory ∧
      { fixture with entries := some ([] ++ [e]) }.metadataDir = .directory ∧
      filesAmong fixtureNames { fixture with entries := some ([] ++ [e]) } [] = .ok [] ∧ e.kind = .unreadable :=
  ⟨⟨.unreadable, none, .failed, none, none⟩, rfl, rfl, rfl, rfl⟩
theorem witness_IoFailuresAreHostErrors_record : (sourceFile none none).size = none := by decide
theorem witness_IoFailuresAreHostErrors_fileSet : ∃ f fs, fileSet fixtureNames fixture = .ok (f :: fs) := ⟨_, _, rfl⟩

theorem witness_PathsAreCheckedFirst_root : { fixture with root := .notDirectory }.root ≠ .directory := by decide
theorem witness_PathsAreCheckedFirst_metadataDir :
    { fixture with metadataDir := .missing }.root = .directory ∧
      { fixture with metadataDir := .missing }.metadataDir ≠ .directory := by decide

/-- P5's tree without B.IFO. -/
def fixtureWithoutB : HostTree :=
  { fixture with
    entries := some [⟨.regularFile, some "A.IFO".toList, .recorded 0, some 4, some [0x41, 0x42, 0x43, 0x44]⟩] }

theorem witness_AbortedComputationHasNoResult : (compute fixtureNames fixtureWithoutB).ended ≠ .complete := by decide +kernel
theorem witness_MissingDesignatedFileAborts :
    fixtureWithoutB.root = .directory ∧ fixtureWithoutB.metadataDir = .directory ∧
      fileSet fixtureNames fixtureWithoutB = .ok [sourceFile (some 4) (some [0x41, 0x42, 0x43, 0x44])] ∧
      "A.IFO".toList ≠ fixtureNames.designatedSecond ∧ timestampInRange 0 = true :=
  ⟨rfl, rfl, rfl, by decide +kernel, by decide +kernel⟩

/-- P5's tree with the sizes and contents of its two files as given, listed in sorted order. -/
def fixtureWith (sizeA sizeB : Option Nat) (contentB : List Byte) : HostTree :=
  { fixture with
    entries := some [⟨.regularFile, some "A.IFO".toList, .recorded 0, sizeA, some [0x41]⟩,
      ⟨.regularFile, some "B.IFO".toList, .recorded 0, sizeB, some contentB⟩] }

/-- The file set of that tree. -/
def filesWith (sizeA sizeB : Option Nat) (contentB : List Byte) : List SourceFile :=
  [sourceFile sizeA (some [0x41]),
    ⟨fixture.entryPath fixtureNames (some "B.IFO".toList), "B.IFO".toList, some 0, sizeB, some contentB⟩]

/-- A.IFO's record is fed, B.IFO's size cannot be read. -/
theorem witness_FirstErrorEndsTheComputation_record :
    ∃ f record e, (fixtureWith (some 1) none []).root = .directory ∧ (fixtureWith (some 1) none []).metadataDir = .directory ∧
      fileSet fixtureNames (fixtureWith (some 1) none []) = .ok (filesWith (some 1) none []) ∧
      sortByName (filesWith (some 1) none []) = [sourceFile (some 1) (some [0x41])] ++ f :: [] ∧
      [sourceFile (some 1) (some [0x41])].map recordBytes = [record].map .ok ∧ recordBytes f = .error e :=
  ⟨_, _, _, rfl, rfl, rfl, rfl, rfl, rfl⟩
theorem witness_FirstErrorEndsTheComputation_missing :
    ∃ f record, fixtureWithoutB.root = .directory ∧ fixtureWithoutB.metadataDir = .directory ∧
      fileSet fixtureNames fixtureWithoutB = .ok [f] ∧ (sortByName [f]).map recordBytes = [record].map .ok ∧
      f.name ≠ fixtureNames.designatedSecond :=
  ⟨sourceFile (some 4) (some [0x41, 0x42, 0x43, 0x44]), _, rfl, rfl, rfl, rfl, by decide +kernel⟩
/-- A.IFO's content is fed, B.IFO's is short. -/
theorem witness_FirstErrorEndsTheComputation_content :
    ∃ f recordA recordB content, (fixtureWith (some 1) (some 2) [0x00]).root = .directory ∧
      (fixtureWith (some 1) (some 2) [0x00]).metadataDir = .directory ∧
      fileSet fixtureNames (fixtureWith (some 1) (some 2) [0x00]) = .ok (filesWith (some 1) (some 2) [0x00]) ∧
      (sortByName (filesWith (some 1) (some 2) [0x00])).map recordBytes = [recordA, recordB].map .ok ∧
      (sourceFile (some 1) (some [0x41])).name = fixtureNames.designatedFirst ∧ f.name = fixtureNames.designatedSecond ∧
      (sortByName (filesWith (some 1) (some 2) [0x00])).filter (fun g => isDesignated fixtureNames g.name) =
        [sourceFile (some 1) (some [0x41])] ++ f :: [] ∧
      [sourceFile (some 1) (some [0x41])].map contentBytes = [content].map .ok ∧
      contentBytes f = .error (.contentReadIncomplete 2 (some 1)) :=
  ⟨_, _, _, _, rfl, rfl, rfl, rfl, rfl, rfl, rfl, rfl, rfl⟩

end Sys2Proof.Tests
end

section
/-! PROOFS. The block as a whole: the parameters of an instance stay (R9, R32), and an offered command is accepted and run (R15, R49). -/

namespace Sys2Proof.Machine

/-! ### The parameters of an instance -/

theorem exec_params {i : Instr} {s t : State} (h : exec i s = .next t) : t.params = s.params := by
  obtain ⟨-, ⟨-, rfl⟩ | ⟨b, -, -, rfl⟩ | ⟨-, -, rfl⟩ | ⟨-, -, rfl⟩⟩ := exec_next h
  · simp
  · exact State.writeAcc_params s (foldStep s.table s.acc b)
  · exact State.emitResponse_params s s.acc
  · exact State.raiseFault_params s .notConstructed (encode i)

/-- If the commands `run` keep the parameters, so does an accepted word: a reserved one enters fault, which writes no parameter. -/
theorem runWord_params {run : Instr → State → Host.Outcome State Fault Refusal} {w : CommandWord} {s t : State}
    (hrun : ∀ {i s t}, run i s = .next t → t.params = s.params) (h : runWord run w s = .next t) : t.params = s.params := by
  obtain ⟨i, -, hi⟩ | ⟨r, -, rfl⟩ := runWord_next h
  · exact hrun hi
  · exact State.raiseFault_params s .reservedCommand w

/-- If the commands `run` and the reset `rst` keep the parameters, so does every answered step: idle, take, reset or command. -/
theorem stepWith_params {run : Instr → State → Host.Outcome State Fault Refusal} {rst : State → State} {s t : State}
    (hrun : ∀ {i s t}, run i s = .next t → t.params = s.params) (hrst : ∀ s, (rst s).params = s.params)
    (h : stepWith run rst s = .next t) : t.params = s.params := by
  obtain ⟨-, -, rfl⟩ | ⟨ws, rest, -, -, rfl⟩ | ⟨ws, rest, -, -, rfl⟩ | ⟨w, rest, -, -, hw⟩ := stepWith_next h
  · rfl
  · simp
  · simp [hrst]
  · simpa using runWord_params hrun hw

/-- Settles O28: no command and no reset writes the parameters, so no step does. -/
theorem parametersNeverChange : Obligations.ParametersNeverChange := by
  unfold Obligations.ParametersNeverChange
  intro s t h
  exact stepWith_params exec_params State.hardwareReset_params h

/-! ### The offered command -/

/-- A word offered to a block that is not faulted is accepted and run (R15, R49). -/
theorem step_of_command {s : State} {w : CommandWord} {rest : List HostMove} (hf : s.fault = false)
    (hi : s.inbox = .command w :: rest) : step s = runWord exec w (s.accept w rest) := by
  simp [step, stepWith, hf, stepRunning, hi]

/-- A 16-bit table row of a command word is that word. -/
@[simp] theorem tableWord_toNat (w : CommandWord) : tableWord 16 w.toNat = w := by
  rw [tableWord, Nat.mod_eq_of_lt w.isLt, BitVec.ofNat_toNat, BitVec.setWidth_eq]

theorem State.withFetchWord_inbox (s : State) (w : CommandWord) :
    (s.withFetchWord 16 w.toNat).inbox = .command w :: s.inbox := by
  simp [State.withFetchWord]

/-- Accepting the word that `withFetchWord` placed leaves the host's other moves as they were. -/
theorem State.withFetchWord_accept (s : State) (nbits n : Nat) (w : CommandWord) :
    (s.withFetchWord nbits n).accept w s.inbox = { s with accepted := s.accepted ++ [w] } := rfl

/-- Settles O16: the step accepts the offered word and runs what it decodes to, and `withFetchWord` is one way to offer it. -/
theorem stepRunsTheDecodedCommand : Obligations.StepRunsTheDecodedCommand := by
  unfold Obligations.StepRunsTheDecodedCommand
  intro s w rest i hf hi hd
  refine ⟨?offered, fun u hu => ?fetched⟩
  case offered => rw [step_of_command hf hi, runWord_ok hd, State.accept]
  case fetched =>
    have hfault : (u.withFetchWord 16 w.toNat).fault = false := hu
    rw [step_of_command hfault (u.withFetchWord_inbox w), runWord_ok hd, State.withFetchWord_accept]

end Sys2Proof.Machine
end

section
/-! PROOFS. Words and histories: a command's word is its encoding (R59), and what one more accepted word adds to a history (R49). -/

namespace Sys2Proof

/-- The three fields make up the whole word (R55). -/
theorem eq_of_fields {v w : CommandWord} (hop : opField v = opField w) (hrsv : rsvField v = rsvField w)
    (hdata : dataField v = dataField w) : v = w := by
  have hfields : ∀ u : CommandWord, u = opField u ++ rsvField u ++ dataField u := by
    intro u
    apply BitVec.eq_of_getLsbD_eq
    intro i hi
    simp only [opField, rsvField, dataField, BitVec.getLsbD_append, BitVec.getLsbD_extractLsb']
    interval_cases i <;> simp
  rw [hfields v, hfields w, hop, hrsv, hdata]

/-- A word that decodes to a command is that command's word. -/
theorem eq_encode_of_decode {w : CommandWord} {i : Instr} (h : decode w = .ok i) : w = encode i := by
  obtain ⟨hrsv, ⟨hop, hdata, rfl⟩ | ⟨hop, rfl⟩ | ⟨hop, hdata, rfl⟩⟩ := decode_ok h
  case inl => exact eq_of_fields hop hrsv hdata
  case inr.inl =>
    obtain ⟨hop', hrsv', hdata'⟩ := fields_encode_update (dataField w)
    exact eq_of_fields (hop.trans hop'.symm) (hrsv.trans hrsv'.symm) hdata'.symm
  case inr.inr => exact eq_of_fields hop hrsv hdata

theorem decode_encode (i : Instr) : decode (encode i) = .ok i := by
  cases i with
  | construct => rfl
  | update b =>
    obtain ⟨hop, hrsv, hdata⟩ := fields_encode_update b
    simp [decode, hop, hrsv, hdata]
  | read => rfl

theorem isReserved_iff {w : CommandWord} : isReserved w = true ↔ ∃ r, decode w = .error r := by
  cases hd : decode w <;> simp [isReserved, hd]

end Sys2Proof

namespace Sys2Proof.Machine

/-- The word `w` raises the fault `c` in a block whose CONSTRUCTED is `constructed`: it is Reserved, or it is UPDATE or READ before
CONSTRUCT (R132, R133). -/
def Raises (constructed : Bool) (w : CommandWord) (c : Cause) : Prop :=
  (isReserved w = true ∧ c = .reservedCommand) ∨
  (((∃ b, decode w = .ok (.update b)) ∨ decode w = .ok .read) ∧ constructed = false ∧ c = .notConstructed)

theorem Raises.cause_ne {k : Bool} {w : CommandWord} {c : Cause} (h : Raises k w c) : c ≠ .noFault := by
  obtain ⟨-, rfl⟩ | ⟨-, -, rfl⟩ := h <;> decide

/-! ### The history of accepted words -/

section
variable {p : Params} {h : History} {w : CommandWord}

@[simp] theorem historyOf_nil : historyOf p [] = ⟨none, []⟩ := rfl

@[simp] theorem historyOf_concat (ws : List CommandWord) : historyOf p (ws ++ [w]) = (historyOf p ws).after p w := by
  simp [historyOf]

theorem History.after_reserved (hw : isReserved w = true) : h.after p w = h := by
  obtain ⟨r, hd⟩ := isReserved_iff.1 hw
  simp [History.after, hd]

theorem History.after_construct (hd : decode w = .ok .construct) : h.after p w = { h with acc := some p.pInit } := by
  simp [History.after, hd]

theorem History.after_update {b : Byte} (hd : decode w = .ok (.update b)) :
    h.after p w = { h with acc := h.acc.map fun a => foldStep (tableGen p.pPoly) a b } := by
  simp [History.after, hd]

theorem History.after_read (hd : decode w = .ok .read) :
    h.after p w = { h with emitted := h.emitted ++ h.acc.toList } := by
  simp [History.after, hd]

/-- A word that enters fault adds nothing: before CONSTRUCT there is no running value to fold into or to emit. -/
theorem History.after_of_raises {k : Bool} {c : Cause} (hw : Raises k w c) (hacc : k = false → h.acc = none) :
    h.after p w = h := by
  obtain ⟨acc, emitted⟩ := h
  obtain ⟨hr, -⟩ | ⟨hd, hk, -⟩ := hw
  · exact History.after_reserved hr
  · obtain rfl : acc = none := hacc hk
    obtain ⟨b, hd⟩ | hd := hd
    · exact History.after_update hd
    · simp [History.after_read hd]

end

end Sys2Proof.Machine
end

section
/-! PROOFS. One answered step of this block: forwards for takes and resets, and backwards as one list of cases from which the statements
about every step follow. -/

namespace Sys2Proof.Machine

/-! ### Takes and resets, also behind commands that a halted block has not accepted -/

section
variable {run : Instr → State → Host.Outcome State Fault Refusal} {rst : State → State} {s : State}
  {ws : List CommandWord} {rest : List HostMove}

theorem stepWith_of_take (hi : s.inbox = offers ws ++ .takeResponse :: rest) (hw : s.fault = true ∨ ws = []) :
    stepWith run rst s = .next (s.withInbox (offers ws ++ rest)).deliverResponse := by
  cases hf : s.fault with
  | true => simp [stepWith, hf, stepHalted, hi, haltedMove_offers, haltedMove]
  | false =>
    obtain rfl : ws = [] := hw.resolve_left (by simp [hf])
    simp [stepWith, hf, stepRunning, hi, offers]

theorem stepWith_of_reset (hi : s.inbox = offers ws ++ .reset :: rest) (hw : s.fault = true ∨ ws = []) :
    stepWith run rst s = .next (rst (s.withInbox rest)) := by
  cases hf : s.fault with
  | true => simp [stepWith, hf, stepHalted, hi, haltedMove_offers, haltedMove]
  | false =>
    obtain rfl : ws = [] := hw.resolve_left (by simp [hf])
    simp [stepWith, hf, stepRunning, hi, offers]

end

/-- Settles O19: the step is one delivery, and delivering from an empty stream changes nothing. -/
theorem takenResponseIsDelivered : Obligations.TakenResponseIsDelivered := by
  unfold Obligations.TakenResponseIsDelivered
  intro s ws rest hi hw
  have hstep : step s = .next (s.withInbox (offers ws ++ rest)).deliverResponse := stepWith_of_take hi hw
  refine ⟨fun r rs hr => ?pending, fun hr => ?none⟩
  case pending => simp [hstep, State.deliverResponse, State.withInbox, hr]
  case none => simp [hstep, State.deliverResponse, State.withInbox, hr]

/-- Settles O22: the step is one hardware reset, and the free values stand for ACC and TABLE. -/
theorem hardwareResetClearsControlState : Obligations.HardwareResetClearsControlState := by
  unfold Obligations.HardwareResetClearsControlState
  intro s ws rest hi hw
  exact ⟨_, _, stepWith_of_reset hi hw⟩

/-! ### Everything an answered step can be -/

/-- `StepCase s t`: what the block has done when a step from `s` answered `t`. -/
inductive StepCase (s : State) : State → Prop
  /-- Nothing is offered (R60). -/
  | idle (hf : s.fault = false) (hi : s.inbox = []) : StepCase s s
  /-- The host took a response (R29, R136). -/
  | take {rest : List HostMove} (ht : HostTakes s) : StepCase s (s.withInbox rest).deliverResponse
  /-- Hardware reset (R31, R150). -/
  | reset {rest : List HostMove} (hr : HostResets s) : StepCase s (s.withInbox rest).hardwareReset
  /-- CONSTRUCT was accepted (R75). -/
  | construct {rest : List HostMove} (hf : s.fault = false) (hi : s.inbox = .command (encode .construct) :: rest) :
      StepCase s ((((s.accept (encode .construct) rest).writeTable (tableGen s.params.pPoly)).writeAcc
        s.params.pInit).setConstructed)
  /-- UPDATE was accepted by a constructed block (R85). -/
  | update {b : Byte} {rest : List HostMove} (hf : s.fault = false) (hc : s.constructed = true)
      (hi : s.inbox = .command (encode (.update b)) :: rest) :
      StepCase s ((s.accept (encode (.update b)) rest).writeAcc (foldStep s.table s.acc b))
  /-- READ was accepted by a constructed block (R100). -/
  | read {rest : List HostMove} (hf : s.fault = false) (hc : s.constructed = true)
      (hi : s.inbox = .command (encode .read) :: rest) :
      StepCase s ((s.accept (encode .read) rest).emitResponse s.acc)
  /-- A word was accepted that enters fault (R132, R133, R135). -/
  | fault {w : CommandWord} {c : Cause} {rest : List HostMove} (hf : s.fault = false) (hi : s.inbox = .command w :: rest)
      (hw : Raises s.constructed w c) : StepCase s ((s.accept w rest).raiseFault c w)

/-- The cases of a word that a running block accepts. -/
theorem StepCase.of_runWord {s t : State} {w : CommandWord} {rest : List HostMove} (hf : s.fault = false)
    (hi : s.inbox = .command w :: rest) (h : runWord exec w (s.accept w rest) = .next t) : StepCase s t := by
  obtain ⟨i, hd, hx⟩ | ⟨r, hd, rfl⟩ := runWord_next h
  · obtain rfl : w = encode i := eq_encode_of_decode hd
    obtain ⟨-, ⟨rfl, rfl⟩ | ⟨b, rfl, hc, rfl⟩ | ⟨rfl, hc, rfl⟩ | ⟨⟨b, rfl⟩ | rfl, hc, rfl⟩⟩ := exec_next hx
    · exact .construct hf hi
    · exact .update hf hc hi
    · exact .read hf hc hi
    · exact .fault hf hi (.inr ⟨.inl ⟨b, hd⟩, hc, rfl⟩)
    · exact .fault hf hi (.inr ⟨.inr hd, hc, rfl⟩)
  · exact .fault hf hi (.inl ⟨isReserved_iff.2 ⟨r, hd⟩, rfl⟩)

theorem stepCase_of_step {s t : State} (h : step s = .next t) : StepCase s t := by
  obtain ⟨hf, hi, rfl⟩ | ⟨ws, rest, hi, hw, rfl⟩ | ⟨ws, rest, hi, hw, rfl⟩ | ⟨w, rest, hf, hi, hx⟩ := stepWith_next h
  · exact .idle hf hi
  · exact .take ⟨ws, rest, hw.symm, hi⟩
  · exact .reset ⟨ws, rest, hw.symm, hi⟩
  · exact .of_runWord hf hi hx

end Sys2Proof.Machine
end

section
/-! PROOFS. Who writes which part of the state (R22 to R28): STATUS and its layout, what reset leaves, and the writers of ACC, TABLE,
CONSTRUCTED, the fault's record and the index. -/

namespace Sys2Proof.Machine

/-! ### The status port -/

theorem Cause.code_ne_three (c : Cause) : c.code ≠ 3 := by cases c <;> decide

section
variable (s : State)

theorem State.statusPort_bit_zero : s.statusPort.getLsbD 0 = s.constructed := by
  simp only [State.statusPort, BitVec.getLsbD_append]
  simp

theorem State.statusPort_bit_one : s.statusPort.getLsbD 1 = s.fault := by
  simp only [State.statusPort, BitVec.getLsbD_append]
  simp

theorem State.statusPort_cause : s.statusPort.extractLsb' 2 2 = s.cause.code := by
  apply BitVec.eq_of_getLsbD_eq
  intro i hi
  simp only [State.statusPort, BitVec.getLsbD_extractLsb', BitVec.getLsbD_append]
  interval_cases i <;> simp

theorem State.statusPort_high : s.statusPort.extractLsb' 4 4 = 0 := by
  apply BitVec.eq_of_getLsbD_eq
  intro i hi
  simp only [State.statusPort, BitVec.getLsbD_extractLsb', BitVec.getLsbD_append]
  interval_cases i <;> simp

end

/-- Settles O24. -/
theorem statusPortLayout : Obligations.StatusPortLayout := by
  unfold Obligations.StatusPortLayout
  intro s
  refine ⟨s.statusPort_bit_zero, s.statusPort_bit_one, ?code, ?never3, s.statusPort_high⟩
  case code =>
    rw [s.statusPort_cause]
    cases s.cause <;> rfl
  case never3 =>
    rw [s.statusPort_cause]
    exact s.cause.code_ne_three

/-- Settles O23: each control field of `State.reset` has the value of R31, and the port shows the cleared STATUS. -/
theorem resetStateIsIdleUnconstructed : Obligations.ResetStateIsIdleUnconstructed := by
  unfold Obligations.ResetStateIsIdleUnconstructed
  exact ⟨rfl, rfl, rfl, rfl, rfl, rfl, rfl⟩

/-! ### The writers -/

/-- Settles O25: of the cases of a step only CONSTRUCT, UPDATE and reset write ACC, and UPDATE leaves TABLE. -/
theorem writersOfAccAndTable : Obligations.WritersOfAccAndTable := by
  unfold Obligations.WritersOfAccAndTable
  intro s t h
  cases stepCase_of_step h with
  | construct hf hi => exact .inr (.inl ⟨_, hf, hi, rfl, rfl⟩)
  | update hf hc hi => exact .inr (.inr (.inl ⟨_, _, hf, hc, hi, rfl, rfl⟩))
  | reset hr => exact .inr (.inr (.inr ⟨hr, rfl⟩))
  | idle | take | read | fault => exact .inl ⟨rfl, rfl⟩

/-- Settles O26: in every other case than CONSTRUCT and reset the flag is what it was. -/
theorem writersOfConstructed : Obligations.WritersOfConstructed := by
  unfold Obligations.WritersOfConstructed
  intro s t h
  cases stepCase_of_step h with
  | construct hf hi => exact ⟨fun _ _ => ⟨hf, hf, _, hi⟩, fun _ ht => absurd ht (by simp)⟩
  | reset hr => exact ⟨fun _ ht => absurd ht (by simp), fun _ _ => hr⟩
  | idle | take | update | read | fault =>
    exact ⟨fun hs ht => absurd (hs.symm.trans ht) (by decide), fun hs ht => absurd (hs.symm.trans ht) (by decide)⟩

/-- Settles O27: fault entry records the word that raises its cause; every other case but reset leaves the record. -/
theorem writersOfFaultState : Obligations.WritersOfFaultState := by
  unfold Obligations.WritersOfFaultState
  intro s t h
  cases stepCase_of_step h with
  | fault hf hi hw => exact .inr (.inl ⟨_, _, hf, hi, rfl, rfl, rfl, rfl, rfl, rfl, hw⟩)
  | reset hr => exact .inr (.inr ⟨hr, rfl, rfl, rfl⟩)
  | idle | take | construct | update | read => exact .inl ⟨rfl, rfl, rfl⟩

/-- An accepted word raises the index by 1 (R24). -/
theorem State.position_of_accepted_concat {s t : State} {w : CommandWord} (h : t.accepted = s.accepted ++ [w]) :
    t.position = s.position + 1 := by
  simp [State.position, h]

/-- Settles O29: the four cases with an accepted word add it to the input sequence, and only a reset starts that anew. -/
theorem indexCountsAcceptedCommands : Obligations.IndexCountsAcceptedCommands := by
  unfold Obligations.IndexCountsAcceptedCommands
  refine ⟨rfl, fun s t h => ?_⟩
  cases stepCase_of_step h with
  | idle hf hi => exact .inr (.inl ⟨rfl, .inl hi⟩)
  | take ht => exact .inr (.inl ⟨rfl, .inr ht⟩)
  | reset hr => exact .inr (.inr ⟨rfl, hr⟩)
  | construct hf hi | update hf _ hi | read hf _ hi | fault hf hi =>
    exact .inl ⟨State.position_of_accepted_concat rfl, hf, _, hi⟩

end Sys2Proof.Machine
end

section
/-! PROOFS. The invariant (R23, R27, R28, R49): each of its four parts is kept by every step, FaultRecorded with the help of
StatusConsistent, and HistoryKept with the help of TableBuilt. -/

namespace Sys2Proof.Machine

theorem StepCase.statusConsistent {s t : State} (h : StepCase s t) (hs : StatusConsistent s) : StatusConsistent t := by
  cases h with
  | idle | take | construct | update | read => exact hs
  | reset => simp [StatusConsistent]
  | fault hf hi hw => simp [StatusConsistent, hw.cause_ne]

theorem StepCase.tableBuilt {s t : State} (h : StepCase s t) (hs : TableBuilt s) : TableBuilt t := by
  cases h with
  | idle | take | update | read | fault => exact hs
  | reset => simp [TableBuilt]
  | construct => simp [TableBuilt]

/-! ### The fault's record -/

theorem StatusConsistent.cause_of_running {s : State} (h : StatusConsistent s) (hf : s.fault = false) :
    s.cause = .noFault := by
  by_contra hc
  exact absurd (h.2 hc) (by simp [hf])

/-- Without a fault only the reset value of FAULT_CMD is asked for. -/
theorem faultRecorded_iff_of_noFault {s : State} (h : s.cause = .noFault) :
    FaultRecorded s ↔ s.faultCmd = 0x0000 := by
  simp [FaultRecorded, h]

/-- Fault entry makes a true record of the word just accepted (R135). -/
theorem faultRecorded_raiseFault {s : State} {w : CommandWord} {c : Cause} (rest : List HostMove)
    (hw : Raises s.constructed w c) : FaultRecorded ((s.accept w rest).raiseFault c w) := by
  obtain ⟨hr, rfl⟩ | ⟨hd, hc, rfl⟩ := hw
  · exact ⟨hr, by simp⟩
  · exact ⟨hc, by simp, hd⟩

theorem StepCase.faultRecorded {s t : State} (h : StepCase s t) (hsc : StatusConsistent s) (hs : FaultRecorded s) :
    FaultRecorded t := by
  cases h with
  | idle | take => exact hs
  | reset => rfl
  | construct hf | update hf | read hf =>
    have hc := hsc.cause_of_running hf
    exact (faultRecorded_iff_of_noFault (by simpa using hc)).2 ((faultRecorded_iff_of_noFault hc).1 hs)
  | fault hf hi hw => exact faultRecorded_raiseFault _ hw

/-! ### The history -/

/-- The running value that the block shows to its history: ACC once constructed, none before (R31, R49). -/
def State.visibleAcc (s : State) : Option Word := if s.constructed then some s.acc else none

theorem State.visibleAcc_of_constructed {s : State} (h : s.constructed = true) : s.visibleAcc = some s.acc := by
  simp [State.visibleAcc, h]

theorem State.visibleAcc_of_not {s : State} (h : s.constructed = false) : s.visibleAcc = none := by
  simp [State.visibleAcc, h]

theorem historyKept_iff {s : State} :
    HistoryKept s ↔ (historyOf s.params s.accepted).acc = s.visibleAcc ∧
      (historyOf s.params s.accepted).emitted <:+ s.delivered ++ s.responses := by
  cases hc : s.constructed <;> simp [HistoryKept, State.visibleAcc, hc]

/-- A response that the host takes goes from the head of the pending ones to the end of the delivered ones. -/
theorem State.deliverResponse_stream (s : State) :
    s.deliverResponse.delivered ++ s.deliverResponse.responses = s.delivered ++ s.responses := by
  cases hr : s.responses <;> simp [hr]

theorem StepCase.historyKept {s t : State} (h : StepCase s t) (htb : TableBuilt s) (hs : HistoryKept s) :
    HistoryKept t := by
  obtain ⟨hacc, hemit⟩ := historyKept_iff.1 hs
  cases h with
  | idle => exact hs
  | @take rest =>
    refine historyKept_iff.2 ⟨hacc, ?_⟩
    rw [State.deliverResponse_stream]
    exact hemit
  | reset => exact historyKept_iff.2 ⟨rfl, List.nil_suffix⟩
  | construct hf hi =>
    refine historyKept_iff.2 ?_
    simp [History.after_construct (decode_encode _), State.visibleAcc, hemit]
  | update hf hc hi =>
    refine historyKept_iff.2 ?_
    rw [State.visibleAcc_of_constructed hc] at hacc
    simp [History.after_update (decode_encode _), State.visibleAcc, hc, hacc, htb hc, hemit]
  | read hf hc hi =>
    refine historyKept_iff.2 ?_
    rw [State.visibleAcc_of_constructed hc] at hacc
    have hstream : _ <:+ s.delivered ++ s.responses ++ [s.acc] := List.suffix_append_self_iff.2 hemit
    simpa [History.after_read (decode_encode _), State.visibleAcc, hc, hacc] using hstream
  | fault hf hi hw =>
    have hnone : s.constructed = false → (historyOf s.params s.accepted).acc = none :=
      fun hc => hacc.trans (State.visibleAcc_of_not hc)
    refine historyKept_iff.2 ?_
    simpa [History.after_of_raises hw hnone] using ⟨hacc, hemit⟩

/-! ### The invariant -/

/-- Settles O31: nothing is constructed, no fault is recorded, and the history is empty. -/
theorem invariantHoldsAtReset : Obligations.InvariantHoldsAtReset := by
  unfold Obligations.InvariantHoldsAtReset
  have hstatus : StatusConsistent State.reset := by simp [StatusConsistent, State.reset]
  have htable : TableBuilt State.reset := by simp [TableBuilt, State.reset]
  have hhistory : HistoryKept State.reset := historyKept_iff.2 ⟨rfl, List.nil_suffix⟩
  exact ⟨hstatus, htable, rfl, hhistory⟩

/-- Settles O32: part by part, over the cases of a step. -/
theorem everyStepKeepsTheInvariant : Obligations.EveryStepKeepsTheInvariant := by
  unfold Obligations.EveryStepKeepsTheInvariant
  rintro s t ⟨hstatus, htable, hfault, hhistory⟩ h
  have hcase := stepCase_of_step h
  exact ⟨hcase.statusConsistent hstatus, hcase.tableBuilt htable, hcase.faultRecorded hstatus hfault,
    hcase.historyKept htable hhistory⟩

end Sys2Proof.Machine
end

section
/-! PROOFS. What the host cannot observe (R31, R150): states that it cannot tell apart are kept so by every operation and gate, and so by
every step of two blocks whose commands and resets keep them so. -/

namespace Sys2Proof.Machine

section
variable {s t : State}

/-- Of two states that the host cannot tell apart, one is the other with its own ACC, TABLE and count of resets. -/
theorem sameToHost_iff : SameToHost s t ↔
    ∃ acc table resets, t = { s with acc := acc, table := table, resets := resets } ∧
      (s.constructed = true → s.acc = acc ∧ s.table = table) := by
  constructor
  · rintro ⟨hparams, hconstructed, hfault, hcause, hcmd, hresp, hdel, haccepted, hinbox, hdata⟩
    refine ⟨t.acc, t.table, t.resets, ?_, hdata⟩
    rw [hparams, hconstructed, hfault, hcause, hcmd, hresp, hdel, haccepted, hinbox]
  · rintro ⟨acc, table, resets, rfl, hdata⟩
    exact ⟨rfl, rfl, rfl, rfl, rfl, rfl, rfl, rfl, rfl, hdata⟩

/-- The host sees every field but ACC, TABLE and the count of resets. -/
theorem SameToHost.view {α : Type} (h : SameToHost s t) (f : State → α)
    (hf : ∀ acc table resets, f { s with acc := acc, table := table, resets := resets } = f s) : f t = f s := by
  obtain ⟨acc, table, resets, rfl, -⟩ := sameToHost_iff.1 h
  exact hf acc table resets

theorem SameToHost.fault_eq (h : SameToHost s t) : t.fault = s.fault := h.view State.fault fun _ _ _ => rfl
theorem SameToHost.cause_eq (h : SameToHost s t) : t.cause = s.cause := h.view State.cause fun _ _ _ => rfl
theorem SameToHost.inbox_eq (h : SameToHost s t) : t.inbox = s.inbox := h.view State.inbox fun _ _ _ => rfl
theorem SameToHost.constructed_eq (h : SameToHost s t) : t.constructed = s.constructed :=
  h.view State.constructed fun _ _ _ => rfl

/-! ### The operations over the state -/

theorem SameToHost.withInbox (h : SameToHost s t) (rest : List HostMove) :
    SameToHost (s.withInbox rest) (t.withInbox rest) := by
  obtain ⟨_, _, _, rfl, hdata⟩ := sameToHost_iff.1 h
  exact sameToHost_iff.2 ⟨_, _, _, rfl, hdata⟩

theorem SameToHost.accept (h : SameToHost s t) (w : CommandWord) (rest : List HostMove) :
    SameToHost (s.accept w rest) (t.accept w rest) := by
  obtain ⟨_, _, _, rfl, hdata⟩ := sameToHost_iff.1 h
  exact sameToHost_iff.2 ⟨_, _, _, rfl, hdata⟩

theorem SameToHost.deliverResponse (h : SameToHost s t) : SameToHost s.deliverResponse t.deliverResponse := by
  obtain ⟨_, _, _, rfl, hdata⟩ := sameToHost_iff.1 h
  exact sameToHost_iff.2 ⟨_, _, _, rfl, hdata⟩

theorem SameToHost.raiseFault (h : SameToHost s t) (c : Cause) (w : CommandWord) :
    SameToHost (s.raiseFault c w) (t.raiseFault c w) := by
  obtain ⟨_, _, _, rfl, hdata⟩ := sameToHost_iff.1 h
  exact sameToHost_iff.2 ⟨_, _, _, rfl, hdata⟩

/-- Hardware reset leaves the block unconstructed, so its free values are out of sight. -/
theorem SameToHost.hardwareReset (h : SameToHost s t) : SameToHost s.hardwareReset t.hardwareReset := by
  obtain ⟨_, _, _, rfl, -⟩ := sameToHost_iff.1 h
  exact sameToHost_iff.2 ⟨_, _, _, rfl, fun hc => absurd hc (by simp)⟩

/-! ### The gates and the commands -/

theorem sameOutcome_whenRunning {e e' : Host.Outcome State Fault Refusal} (h : SameToHost s t)
    (he : SameOutcomeToHost e e') : SameOutcomeToHost (whenRunning s e) (whenRunning t e') := by
  cases hf : s.fault with
  | true =>
    rw [whenRunning_of_halted hf, whenRunning_of_halted (h.fault_eq.trans hf), h.cause_eq]
    exact rfl
  | false => rwa [whenRunning_of_running hf, whenRunning_of_running (h.fault_eq.trans hf)]

/-- Behind the CONSTRUCTED gate the two states differ in their counts of resets only. -/
theorem sameOutcome_whenConstructed {e : State → Host.Outcome State Fault Refusal} (h : SameToHost s t) (w : CommandWord)
    (he : ∀ resets, SameOutcomeToHost (e s) (e { s with resets := resets })) :
    SameOutcomeToHost (whenConstructed s w (e s)) (whenConstructed t w (e t)) := by
  cases hc : s.constructed with
  | true =>
    rw [whenConstructed_of_constructed hc, whenConstructed_of_constructed (h.constructed_eq.trans hc)]
    obtain ⟨_, _, resets, rfl, hdata⟩ := sameToHost_iff.1 h
    obtain ⟨rfl, rfl⟩ := hdata hc
    exact he resets
  | false =>
    rw [whenConstructed_of_not hc, whenConstructed_of_not (h.constructed_eq.trans hc)]
    exact h.raiseFault .notConstructed w

/-- A command reads ACC and TABLE only behind the CONSTRUCTED gate, and CONSTRUCT overwrites both. -/
theorem sameOutcome_exec (h : SameToHost s t) (i : Instr) : SameOutcomeToHost (exec i s) (exec i t) := by
  cases i with
  | construct =>
    refine sameOutcome_whenRunning h ?_
    obtain ⟨_, _, _, rfl, -⟩ := sameToHost_iff.1 h
    exact sameToHost_iff.2 ⟨_, _, _, rfl, fun _ => ⟨rfl, rfl⟩⟩
  | update b =>
    refine sameOutcome_whenRunning h (sameOutcome_whenConstructed h _
      (e := fun u => .next (u.writeAcc (foldStep u.table u.acc b))) fun resets => ?_)
    exact sameToHost_iff.2 ⟨_, _, resets, rfl, fun _ => ⟨rfl, rfl⟩⟩
  | read =>
    refine sameOutcome_whenRunning h (sameOutcome_whenConstructed h _
      (e := fun u => .next (u.emitResponse u.acc)) fun resets => ?_)
    exact sameToHost_iff.2 ⟨_, _, resets, rfl, fun _ => ⟨rfl, rfl⟩⟩

/-! ### The step, for any commands and resets that keep the two states alike -/

variable {run run' : Instr → State → Host.Outcome State Fault Refusal} {rst rst' : State → State}

theorem sameOutcome_runWord {w : CommandWord} (h : SameToHost s t)
    (hrun : ∀ i, SameOutcomeToHost (run i s) (run' i t)) : SameOutcomeToHost (runWord run w s) (runWord run' w t) := by
  cases hd : decode w with
  | ok i =>
    rw [runWord_ok hd, runWord_ok hd]
    exact hrun i
  | error r =>
    rw [runWord_reserved hd, runWord_reserved hd]
    exact h.raiseFault .reservedCommand w

theorem sameOutcome_stepRunning (h : SameToHost s t)
    (hrun : ∀ i w rest, SameOutcomeToHost (run i (s.accept w rest)) (run' i (t.accept w rest)))
    (hrst : ∀ rest, SameToHost (rst (s.withInbox rest)) (rst' (t.withInbox rest))) :
    SameOutcomeToHost (stepRunning run rst s) (stepRunning run' rst' t) := by
  rw [stepRunning, stepRunning, h.inbox_eq]
  rcases s.inbox with _ | ⟨w | _ | _, rest⟩
  case nil => exact h
  case cons.command => exact sameOutcome_runWord (h.accept w rest) fun i => hrun i w rest
  case cons.takeResponse => exact (h.withInbox rest).deliverResponse
  case cons.reset => exact hrst rest

theorem sameOutcome_stepHalted (h : SameToHost s t)
    (hrst : ∀ rest, SameToHost (rst (s.withInbox rest)) (rst' (t.withInbox rest))) :
    SameOutcomeToHost (stepHalted rst s) (stepHalted rst' t) := by
  rw [stepHalted, stepHalted, h.inbox_eq, h.cause_eq]
  cases haltedMove s.inbox with
  | stuck => exact rfl
  | take rest => exact (h.withInbox rest).deliverResponse
  | reset rest => exact hrst rest

theorem sameOutcome_stepWith (h : SameToHost s t)
    (hrun : ∀ i w rest, SameOutcomeToHost (run i (s.accept w rest)) (run' i (t.accept w rest)))
    (hrst : ∀ rest, SameToHost (rst (s.withInbox rest)) (rst' (t.withInbox rest))) :
    SameOutcomeToHost (stepWith run rst s) (stepWith run' rst' t) := by
  rw [stepWith, stepWith, h.fault_eq]
  cases s.fault with
  | true => exact sameOutcome_stepHalted h hrst
  | false => exact sameOutcome_stepRunning h hrun hrst

end

/-- Settles O33: the commands and the reset keep states alike, so the step does, and no port shows ACC or TABLE. -/
theorem valuesBeforeConstructAreUnobservable : Obligations.ValuesBeforeConstructAreUnobservable := by
  unfold Obligations.ValuesBeforeConstructAreUnobservable
  intro s t h
  refine ⟨?outcomes, ?ports⟩
  case outcomes =>
    exact sameOutcome_stepWith h (fun i w rest => sameOutcome_exec (h.accept w rest) i)
      fun rest => (h.withInbox rest).hardwareReset
  case ports =>
    obtain ⟨_, _, _, rfl, -⟩ := sameToHost_iff.1 h
    exact ⟨rfl, rfl, rfl, rfl, rfl⟩

end Sys2Proof.Machine
end

section
/-! PROOFS. The response stream (R49, R100, R102): what READ emits, and where responses go in each answered step. -/

namespace Sys2Proof.Machine

/-! ### READ -/

/-- A block that is ready emits ACC and writes nothing else (R100). -/
theorem exec_read_of_ready {s : State} (hf : s.fault = false) (hc : s.constructed = true) :
    exec .read s = .next (s.emitResponse s.acc) := by
  rw [exec, execRead, whenRunning_of_running hf, whenConstructed_of_constructed hc]

/-- Settles O9: the first READ leaves the block ready, with the same ACC for the second. -/
theorem readCanBeRepeated : Obligations.ReadCanBeRepeated := by
  unfold Obligations.ReadCanBeRepeated
  intro s hf hc
  have hsecond : exec .read (s.emitResponse s.acc) = .next ((s.emitResponse s.acc).emitResponse s.acc) :=
    exec_read_of_ready hf hc
  exact ⟨_, _, exec_read_of_ready hf hc, hsecond, by simp, rfl, rfl, rfl⟩

/-! ### The move that is answered decides the step -/

theorem step_responses_of_hostReads {s t : State} (hr : HostReads s) (h : step s = .next t) :
    t.responses = s.responses ++ [s.acc] := by
  obtain ⟨hf, hc, rest, hi⟩ := hr
  have hread : exec .read (s.accept 0x3000 rest) = .next ((s.accept 0x3000 rest).emitResponse s.acc) :=
    exec_read_of_ready hf hc
  have hdecode : decode 0x3000 = .ok .read := decode_encode .read
  rw [step_of_command hf hi, runWord_ok hdecode, hread] at h
  cases h
  rfl

theorem step_responses_of_hostResets {s t : State} (hr : HostResets s) (h : step s = .next t) : t.responses = [] := by
  obtain ⟨ws, rest, hw, hi⟩ := hr
  rw [step, stepWith_of_reset hi hw] at h
  cases h
  rfl

/-! ### Delivered and pending responses -/

section
variable {s t : State}

/-- Responses join the host's output at its end. -/
theorem StepCase.delivered_prefix (h : StepCase s t) : s.delivered <+: t.delivered := by
  cases h with
  | take => exact List.prefix_append _ _
  | idle | reset | construct | update | read | fault => exact List.prefix_rfl

theorem StepCase.delivered_of_not_take (h : StepCase s t) (ht : ¬ HostTakes s) : t.delivered = s.delivered := by
  cases h with
  | take hto => exact absurd hto ht
  | idle | reset | construct | update | read | fault => rfl

/-- Only READ adds to the responses, and only reset discards some; a take moves one over to the host. -/
theorem StepCase.stream_kept (h : StepCase s t) (hread : ¬ HostReads s) (hreset : ¬ HostResets s) :
    t.delivered ++ t.responses = s.delivered ++ s.responses := by
  cases h with
  | read hf hc hi => exact absurd ⟨hf, hc, _, hi⟩ hread
  | reset hr => exact absurd hr hreset
  | take => exact State.deliverResponse_stream _
  | idle | construct | update | fault => rfl

end

/-- Settles O30: from the cases of a step, and for READ and reset from the step that the host's move fixes. -/
theorem responsesKeepTheirOrder : Obligations.ResponsesKeepTheirOrder := by
  unfold Obligations.ResponsesKeepTheirOrder
  intro s t h
  have hcase := stepCase_of_step h
  exact ⟨hcase.delivered_prefix, hcase.delivered_of_not_take, fun hr => step_responses_of_hostReads hr h,
    fun hr => step_responses_of_hostResets hr h, hcase.stream_kept⟩

end Sys2Proof.Machine
end

section
/-! PROOFS. Several instances side by side (R52, R141): what stands at one place after a step at a place, and after a schedule. -/

namespace Sys2Proof.Machine

/-! ### One instance -/

theorem State.advance_of_next {s t : State} (h : step s = .next t) : s.advance = t := by
  simp [State.advance, h]

theorem State.advance_of_stopped {s : State} (h : ∀ t, step s ≠ .next t) : s.advance = s := by
  cases hs : step s with
  | next t => exact absurd hs (h t)
  | fault r => simp [State.advance, hs]
  | refused r => simp [State.advance, hs]

/-! ### The system -/

section
variable (sys : System)

theorem System.stepInstance_getElem?_same (k : Nat) : (sys.stepInstance k)[k]? = sys[k]?.map State.advance := by
  simp [System.stepInstance]

theorem System.stepInstance_getElem?_of_ne {j k : Nat} (h : k ≠ j) : (sys.stepInstance k)[j]? = sys[j]? := by
  simp [System.stepInstance, h]

end

/-- By induction on the schedule: the first step counts at the place if and only if it is taken there. -/
theorem System.runSchedule_getElem? (sys : System) (schedule : List Nat) (j : Nat) :
    (sys.runSchedule schedule)[j]? = sys[j]?.map (State.advance^[schedule.count j]) := by
  induction schedule generalizing sys with
  | nil => simp [System.runSchedule]
  | cons k ks ih =>
    rw [System.runSchedule, ih]
    by_cases h : k = j
    · subst h
      rw [stepInstance_getElem?_same, Option.map_map, List.count_cons_self, Function.iterate_succ]
    · rw [stepInstance_getElem?_of_ne _ h, List.count_cons_of_ne h]

/-- Schedules that give each instance the same number of steps lead to the same system, whatever their order. -/
theorem System.runSchedule_perm (sys : System) {schedule schedule' : List Nat} (h : schedule.Perm schedule') :
    sys.runSchedule schedule = sys.runSchedule schedule' := by
  apply List.ext_getElem?
  intro j
  rw [runSchedule_getElem?, runSchedule_getElem?, h.count_eq]

theorem System.stepInstance_comm (sys : System) (j k : Nat) :
    (sys.stepInstance k).stepInstance j = (sys.stepInstance j).stepInstance k :=
  sys.runSchedule_perm (.swap j k [])

/-- Settles O36: two steps taken in either order are two schedules that are permutations of each other. -/
theorem instancesAreIndependent : Obligations.InstancesAreIndependent := by
  unfold Obligations.InstancesAreIndependent
  refine ⟨fun s t => State.advance_of_next, fun s => State.advance_of_stopped, System.stepInstance_getElem?_same, ?two,
    System.runSchedule_getElem?⟩
  case two => exact fun sys j k h => ⟨sys.stepInstance_getElem?_of_ne h.symm, sys.stepInstance_comm j k⟩

end Sys2Proof.Machine
end

section
/-! PROOFS. Encoding: the decoder as the inverse of the encoder (R59, R63), and as the match and mask table of R59. -/

namespace Sys2Proof

/-! ### Decoder and encoder -/

theorem decode_eq_ok_iff {w : CommandWord} {i : Instr} : decode w = .ok i ↔ w = encode i := by
  constructor
  · exact eq_encode_of_decode
  · rintro rfl
    exact decode_encode i

theorem isReserved_encode (i : Instr) : isReserved (encode i) = false := isReserved_of_ok (decode_encode i)

/-- A word is reserved if and only if it is no command's word. -/
theorem isReserved_iff_forall_ne_encode {w : CommandWord} : isReserved w = true ↔ ∀ i, w ≠ encode i := by
  constructor
  · rintro h i rfl
    simp [isReserved_encode] at h
  · intro h
    cases hd : decode w with
    | ok i => exact absurd (eq_encode_of_decode hd) (h i)
    | error r => exact isReserved_of_error hd

/-- Settles O1: the table's numbering of a word's bits gives the word itself back. -/
theorem decodeAndEncodeAgree : Obligations.DecodeAndEncodeAgree := by
  unfold Obligations.DecodeAndEncodeAgree
  refine ⟨fun i _ => ⟨decode_encode i, ?table⟩, fun w i => eq_encode_of_decode⟩
  case table => rw [decodeTableWord, Machine.tableWord_toNat, decode_encode, Except.toOption]

/-! ### Match and mask -/

/-- The mask of CONSTRUCT's and READ's rows keeps every bit. -/
theorem and_fullMask (w : CommandWord) : w &&& 0xFFFF = w := BitVec.and_allOnes

/-- A word is its bits [15:8] and its DATA (R55). -/
theorem eq_highBits_or_data (w : CommandWord) : w = (w &&& 0xFF00) ||| (w.setWidth 8).setWidth 16 := by
  have hdata : (w.setWidth 8).setWidth 16 = w &&& 0x00FF := by
    apply BitVec.eq_of_toNat_eq
    have hmask : w.toNat &&& 0xFF = w.toNat % 256 := Nat.and_two_pow_sub_one_eq_mod w.toNat 8
    have hlt : w.toNat % 256 < 65536 := by omega
    simpa [hmask] using hlt
  calc w = w &&& (0xFF00 ||| 0x00FF) := (and_fullMask w).symm
    _ = (w &&& 0xFF00) ||| (w &&& 0x00FF) := BitVec.and_or_distrib_left
    _ = (w &&& 0xFF00) ||| (w.setWidth 8).setWidth 16 := by rw [hdata]

/-- A byte has no bit under the mask of UPDATE's row. -/
theorem byte_and_highMask (b : Byte) : b.setWidth 16 &&& (0xFF00 : CommandWord) = 0 := by
  apply BitVec.eq_of_getLsbD_eq
  intro i hi
  rw [BitVec.getLsbD_and, BitVec.getLsbD_setWidth]
  interval_cases i <;> simp

/-- UPDATE's row of R59: the match value fixes bits [15:8], and DATA is the byte. -/
theorem eq_encode_update_iff {w : CommandWord} {b : Byte} :
    w = encode (.update b) ↔ w &&& 0xFF00 = 0x2000 ∧ b = w.setWidth 8 := by
  constructor
  · rintro rfl
    refine ⟨?_, by simp [encode]⟩
    calc (0x2000 ||| b.setWidth 16) &&& 0xFF00
        = (0xFF00 &&& 0x2000) ||| (b.setWidth 16 &&& 0xFF00) := by
          rw [BitVec.and_comm, BitVec.and_or_distrib_left, BitVec.and_comm (b.setWidth 16)]
      _ = 0x2000 := by rw [byte_and_highMask]; rfl
  · rintro ⟨hmatch, rfl⟩
    calc w = (w &&& 0xFF00) ||| (w.setWidth 8).setWidth 16 := eq_highBits_or_data w
      _ = encode (.update (w.setWidth 8)) := by rw [hmatch, encode]

/-- Settles O2: each row is the word of its command, and a reserved word is the word of none. -/
theorem decodeFollowsMatchAndMask : Obligations.DecodeFollowsMatchAndMask := by
  unfold Obligations.DecodeFollowsMatchAndMask
  intro w
  have hconstruct : w = encode .construct ↔ w &&& 0xFFFF = 0x1000 := by rw [and_fullMask, encode]
  have hread : w = encode .read ↔ w &&& 0xFFFF = 0x3000 := by rw [and_fullMask, encode]
  refine ⟨decode_eq_ok_iff.trans hconstruct, fun b => decode_eq_ok_iff.trans eq_encode_update_iff,
    decode_eq_ok_iff.trans hread, ?reserved⟩
  case reserved =>
    rw [isReserved_iff_forall_ne_encode]
    constructor
    · intro h
      exact ⟨fun hw => h .construct (hconstruct.2 hw), fun hw => h (.update _) (eq_encode_update_iff.2 ⟨hw, rfl⟩),
        fun hw => h .read (hread.2 hw)⟩
    · rintro ⟨hc, hu, hr⟩ i hw
      cases i with
      | construct => exact hc (hconstruct.1 hw)
      | update b => exact hu (eq_encode_update_iff.1 hw).1
      | read => exact hr (hread.1 hw)

/-- Settles O3: four command words by the round trip, seven reserved words by evaluating the decoder. -/
theorem sampleWordsDecode : Obligations.SampleWordsDecode := by
  unfold Obligations.SampleWordsDecode
  refine ⟨decode_encode .construct, decode_encode (.update 0x31), decode_encode (.update 0xFF), decode_encode .read, ?_⟩
  decide

end Sys2Proof
end

section
/-! PROOFS. Idle time (R60, R150). -/

namespace Sys2Proof.Machine

/-- Settles O20: with no fault the block answers the host's next move, and with none offered it stays as it is. -/
theorem idleBlockWaits : Obligations.IdleBlockWaits := by
  unfold Obligations.IdleBlockWaits
  intro s hf hi
  simp [step, stepWith, hf, stepRunning, hi]

end Sys2Proof.Machine
end

section
/-! PROOFS. UTF-8: the model's patterns are those of Lean's library (G2), and only U+0000 has a zero byte. -/

namespace Sys2Proof.Machine

/-- Code points end at U+10FFFF. -/
theorem codePoint_lt (c : Char) : c.toNat < 0x110000 := by
  have h : c.toNat < 0xD800 ∨ 0xDFFF < c.toNat ∧ c.toNat < 0x110000 := c.valid
  omega

theorem ofNat_eq_toBitVec {m n : Nat} (h : m % 256 = n % 256) : BitVec.ofNat 8 m = (UInt8.ofNat n).toBitVec := by
  apply BitVec.eq_of_toNat_eq
  simpa using h

/-- Pattern by pattern: the library also masks the lead byte's bits, which changes nothing in the pattern's range. -/
theorem utf8Char_eq_library (c : Char) : utf8Char c = (String.utf8EncodeChar c).map UInt8.toBitVec := by
  have hmax := codePoint_lt c
  have hval : c.val.toNat = c.toNat := rfl
  have hone : c.toNat ≤ 127 ↔ c.toNat < 0x80 := by omega
  have htwo : c.toNat ≤ 2047 ↔ c.toNat < 0x800 := by omega
  have hthree : c.toNat ≤ 65535 ↔ c.toNat < 0x10000 := by omega
  simp only [utf8Char, String.utf8EncodeChar, hval, hone, htwo, hthree]
  split_ifs <;> simp only [List.map_cons, List.map_nil, List.cons.injEq, and_true]
  · exact ofNat_eq_toBitVec rfl
  · refine ⟨ofNat_eq_toBitVec ?_, ofNat_eq_toBitVec ?_⟩ <;> omega
  · refine ⟨ofNat_eq_toBitVec ?_, ofNat_eq_toBitVec ?_, ofNat_eq_toBitVec ?_⟩ <;> omega
  · refine ⟨ofNat_eq_toBitVec ?_, ofNat_eq_toBitVec ?_, ofNat_eq_toBitVec ?_, ofNat_eq_toBitVec ?_⟩ <;> omega

/-- Whatever is read from each byte of a text, the model and the library give the same. -/
theorem map_utf8Bytes {α : Type} (f : Byte → α) (text : Text) :
    (utf8Bytes text).map f = text.flatMap fun c => (String.utf8EncodeChar c).map fun u => f u.toBitVec := by
  induction text with
  | nil => rfl
  | cons c cs ih =>
    rw [utf8Bytes, List.map_append, ih, List.flatMap_cons, utf8Char_eq_library, List.map_map]
    rfl

/-- In each pattern every byte holds a marker bit, except in the one-byte pattern, where the byte is the code point. -/
theorem zero_notMem_utf8Char {c : Char} (hc : c.toNat ≠ 0) : 0 ∉ utf8Char c := by
  have hmax := codePoint_lt c
  simp only [utf8Char]
  split_ifs <;>
    simp only [List.mem_cons, List.not_mem_nil, or_false, BitVec.ofNat_eq_ofNat, ← BitVec.toNat_inj, BitVec.toNat_ofNat] <;>
    omega

theorem mem_utf8Bytes {text : Text} {b : Byte} : b ∈ utf8Bytes text ↔ ∃ c ∈ text, b ∈ utf8Char c := by
  induction text with
  | nil => simp [utf8Bytes]
  | cons c cs ih => simp [utf8Bytes, ih]

/-- Settles O39: code point by code point. -/
theorem nameBytesAreUtf8AndZero : Obligations.NameBytesAreUtf8AndZero := by
  unfold Obligations.NameBytesAreUtf8AndZero
  intro name
  refine ⟨?bytes, ?nonzero⟩
  case bytes =>
    rw [nameBytes, cstrBytes, List.map_append, map_utf8Bytes]
    rfl
  case nonzero =>
    rintro hname b hb rfl
    obtain ⟨c, hc, hzero⟩ := mem_utf8Bytes.1 hb
    exact zero_notMem_utf8Char (hname c hc) hzero

end Sys2Proof.Machine
end

section
/-! PROOFS. The assembler (R63 to R67): the words of each kind of line, and that every word comes from the encoder. -/

namespace Sys2Proof.Machine

/-! ### Lines -/

theorem assembleLine_of_wellFormed {l : AsmLine} (h : l.wellFormed = true) :
    assembleLine l = .ok (encodeAll (expandLine l)) := by
  simp [assembleLine, h]

theorem assembleLine_of_not_wellFormed {l : AsmLine} (h : ¬ l.wellFormed = true) :
    assembleLine l = .error .operandOutOfRange := by
  simp [assembleLine, h]

/-- A line that is accepted gives commands' words only. -/
theorem assembleLine_mem {l : AsmLine} {ws : List CommandWord} (h : assembleLine l = .ok ws) :
    ∀ w ∈ ws, ∃ i, w = encode i := by
  by_cases hl : l.wellFormed = true
  · rw [assembleLine_of_wellFormed hl] at h
    cases h
    intro w hw
    obtain ⟨i, -, rfl⟩ := List.mem_map.1 hw
    exact ⟨i, rfl⟩
  · rw [assembleLine_of_not_wellFormed hl] at h
    cases h

/-- Lines are accepted only if the first one and the others are, and their words are put one after another. -/
theorem assembleLines_cons_ok {l : AsmLine} {ls : List AsmLine} {ws : List CommandWord}
    (h : assembleLines (l :: ls) = .ok ws) :
    ∃ first others, assembleLine l = .ok first ∧ assembleLines ls = .ok others ∧ ws = first ++ others := by
  cases hl : assembleLine l with
  | error e => simp [assembleLines, hl] at h
  | ok first =>
    cases hls : assembleLines ls with
    | error e => simp [assembleLines, hl, hls] at h
    | ok others =>
      simp only [assembleLines, hl, hls] at h
      cases h
      exact ⟨first, others, rfl, rfl, rfl⟩

theorem assembleLines_mem {ls : List AsmLine} {ws : List CommandWord} (h : assembleLines ls = .ok ws) :
    ∀ w ∈ ws, ∃ i, w = encode i := by
  induction ls generalizing ws with
  | nil =>
    cases h
    simp
  | cons l ls ih =>
    obtain ⟨first, others, hl, hls, rfl⟩ := assembleLines_cons_ok h
    intro w hw
    obtain hw | hw := List.mem_append.1 hw
    · exact assembleLine_mem hl w hw
    · exact ih hls w hw

/-- An accepted text is read as lines, and they give its words. -/
theorem assemble_ok {text : Text} {ws : List CommandWord} (h : assemble text = .ok ws) :
    ∃ ls, readLines (splitAtChars (· == '\n') text) = .ok ls ∧ assembleLines ls = .ok ws := by
  cases hr : readLines (splitAtChars (· == '\n') text) with
  | error e => simp [assemble, hr] at h
  | ok ls => exact ⟨ls, rfl, by simpa [assemble, hr] using h⟩

/-- Settles O37: every word of an accepted text is the word of a command. -/
theorem assemblerEmitsNoReservedWord : Obligations.AssemblerEmitsNoReservedWord := by
  unfold Obligations.AssemblerEmitsNoReservedWord
  intro text ws h w hw
  obtain ⟨ls, -, hls⟩ := assemble_ok h
  obtain ⟨i, rfl⟩ := assembleLines_mem hls w hw
  exact isReserved_encode i

/-! ### The words of bytes -/

/-- The byte does not reach the bits of OP, so that joining it in is adding it (R55, R63). -/
theorem encode_update (b : Byte) : encode (.update b) = BitVec.ofNat 16 (0x2000 + b.toNat) := by
  apply BitVec.eq_of_toNat_eq
  have hb := b.isLt
  have hadd : 0x2000 + b.toNat = 0x2000 ||| b.toNat := Nat.two_pow_add_eq_or_of_lt (i := 13) (by omega) 1
  rw [encode, BitVec.toNat_or, BitVec.toNat_setWidth, BitVec.toNat_ofNat, Nat.mod_eq_of_lt (by omega : b.toNat < 2 ^ 16),
    Nat.mod_eq_of_lt (by omega : 0x2000 + b.toNat < 2 ^ 16), hadd]
  rfl

theorem encodeAll_feed (bytes : List Byte) :
    encodeAll (feed bytes) = bytes.map fun b => BitVec.ofNat 16 (0x2000 + b.toNat) := by
  simp [encodeAll, feed, encode_update]

/-- By induction on the count: the byte at place `i` is what is left after dividing by 256 as often (R64, R65). -/
theorem leBytes_eq_map_range (count v : Nat) :
    leBytes count v = (List.range count).map fun i => BitVec.ofNat 8 (v / 256 ^ i) := by
  induction count generalizing v with
  | zero => rfl
  | succ count ih =>
    rw [leBytes, ih, List.range_succ_eq_map]
    simp [Nat.div_div_eq_div_mul, Nat.pow_succ']

theorem encodeAll_feed_leBytes (count v : Nat) :
    encodeAll (feed (leBytes count v)) =
      (List.range count).map fun i => BitVec.ofNat 16 (0x2000 + v / 256 ^ i % 256) := by
  simp [encodeAll_feed, leBytes_eq_map_range]

theorem encodeAll_feed_ofNat {bytes : List Nat} (h : ∀ b ∈ bytes, b < 256) :
    encodeAll (feed (bytes.map (BitVec.ofNat 8))) = bytes.map fun b => BitVec.ofNat 16 (0x2000 + b) := by
  rw [encodeAll_feed, List.map_map]
  apply List.map_congr_left
  intro b hb
  simp [Nat.mod_eq_of_lt (h b hb)]

theorem encodeAll_feed_cstrBytes (text : Text) :
    encodeAll (feed (cstrBytes text)) =
      (text.flatMap fun c => (String.utf8EncodeChar c).map fun u => BitVec.ofNat 16 (0x2000 + u.toNat)) ++ [0x2000] := by
  rw [encodeAll_feed, cstrBytes, List.map_append, map_utf8Bytes]
  rfl

/-! ### Each kind of line -/

theorem wellFormed_update {n : Nat} : (AsmLine.update n).wellFormed = true ↔ n < 256 := by
  simp [AsmLine.wellFormed, isByteOperand]

theorem wellFormed_updateBytes {bytes : List Nat} :
    (AsmLine.updateBytes bytes).wellFormed = true ↔ ∀ b ∈ bytes, b < 256 := by
  simp [AsmLine.wellFormed, isByteOperand]

theorem wellFormed_updateU64le {v : Nat} : (AsmLine.updateU64le v).wellFormed = true ↔ v < 2 ^ 64 := by
  simp [AsmLine.wellFormed]

theorem assembleLine_update {n : Nat} (h : n < 256) :
    assembleLine (.update n) = .ok [BitVec.ofNat 16 (0x2000 + n)] := by
  rw [assembleLine_of_wellFormed (wellFormed_update.2 h)]
  exact congrArg Except.ok (encodeAll_feed_ofNat (bytes := [n]) (by simpa using h))

/-- Settles O38: an operand in range gives the words of its bytes, and one out of range makes the line ill-formed. -/
theorem assemblyLinesExpand : Obligations.AssemblyLinesExpand := by
  unfold Obligations.AssemblyLinesExpand
  refine ⟨rfl, rfl, fun n => assembleLine_update, fun n hn => ?updateRange, fun v hv => ?u64le, fun v => ?u32le,
    fun bytes hb => ?bytes, fun bytes hb => ?bytesRange, fun v hv => ?u64leRange, fun text => ?cstr⟩
  case updateRange =>
    exact assembleLine_of_not_wellFormed fun h => hn.not_gt (wellFormed_update.1 h)
  case u64le =>
    rw [assembleLine_of_wellFormed (wellFormed_updateU64le.2 hv), expandLine, encodeAll_feed_leBytes]
  case u32le =>
    rw [assembleLine_of_wellFormed rfl, expandLine, encodeAll_feed_leBytes]
  case bytes =>
    rw [assembleLine_of_wellFormed (wellFormed_updateBytes.2 hb), expandLine, encodeAll_feed_ofNat hb]
  case bytesRange =>
    obtain ⟨b, hmem, hlarge⟩ := hb
    exact assembleLine_of_not_wellFormed fun h => hlarge.not_gt (wellFormed_updateBytes.1 h b hmem)
  case u64leRange =>
    exact assembleLine_of_not_wellFormed fun h => hv.not_gt (wellFormed_updateU64le.1 h)
  case cstr =>
    rw [assembleLine_of_wellFormed rfl, expandLine, encodeAll_feed_cstrBytes]

end Sys2Proof.Machine
end

section
/-! PROOFS. The table (R75 to R79): the rounds of the generator, the table that they give, and CONSTRUCT. -/

namespace Sys2Proof.Machine

/-! ### One round (R76) -/

/-- The model's test of bit 0 is that of R76. -/
theorem and_one_eq_one_iff {v : Word} : v &&& 1 = 1 ↔ v.getLsbD 0 = true := by
  rw [show (1 : Word) = 1#64 from rfl, BitVec.and_one_eq_setWidth_ofBool_getLsbD]
  cases v.getLsbD 0 <;> decide

theorem tableRound_eq_ite (p : Word) :
    tableRound p = fun v : Word => if v &&& 1 = 1 then (v >>> 1) ^^^ p else v >>> 1 := by
  funext v
  simp only [tableRound, and_one_eq_one_iff]

/-- The shift always happens; bit 0 decides what is XORed in. -/
theorem tableRound_eq_xor_cond (p v : Word) : tableRound p v = (v >>> 1) ^^^ (bif v.getLsbD 0 then p else 0) := by
  rw [tableRound]
  cases v.getLsbD 0
  · exact BitVec.xor_zero.symm
  · rfl

/-- What two bits bring in cancels where both are set. -/
theorem cond_xor (p : Word) (a b : Bool) :
    (bif (a ^^ b) then p else 0) = (bif a then p else 0) ^^^ (bif b then p else 0) := by
  cases a <;> cases b <;> simp

/-- A round is linear over XOR: the shift is, and so is what bit 0 brings in. -/
theorem tableRound_xor (p v w : Word) : tableRound p (v ^^^ w) = tableRound p v ^^^ tableRound p w := by
  simp only [tableRound_eq_xor_cond, BitVec.getLsbD_xor, BitVec.ushiftRight_xor_distrib, cond_xor]
  ac_rfl

theorem tableRound_zero_poly (v : Word) : tableRound 0 v = v >>> 1 := by
  rw [tableRound_eq_xor_cond, Bool.cond_self]
  exact BitVec.xor_zero

/-! ### Some rounds -/

theorem tableRounds_eq_iterate (p : Word) (n : Nat) (v : Word) : tableRounds p n v = (tableRound p)^[n] v := by
  induction n generalizing v with
  | zero => rfl
  | succ n ih => exact ih (tableRound p v)

theorem tableRounds_xor (p : Word) (n : Nat) (v w : Word) :
    tableRounds p n (v ^^^ w) = tableRounds p n v ^^^ tableRounds p n w := by
  induction n generalizing v w with
  | zero => rfl
  | succ n ih => rw [tableRounds, tableRound_xor, ih, tableRounds, tableRounds]

theorem tableRounds_zero_poly (n : Nat) (v : Word) : tableRounds 0 n v = v >>> n := by
  induction n generalizing v with
  | zero => simp [tableRounds]
  | succ n ih => rw [tableRounds, ih, tableRound_zero_poly, ← BitVec.shiftRight_add, Nat.add_comm]

/-- Seven rounds shift the one bit of 0x80 down to bit 0, and the eighth brings the polynomial in. -/
theorem tableRounds_of_bit_seven (p : Word) : tableRounds p 8 0x80 = p := by
  have hlast : tableRounds p 1 1 = p := by simp [tableRounds, tableRound]
  calc tableRounds p 8 0x80 = tableRounds p 1 1 := by simp [tableRounds, tableRound]
    _ = p := hlast

/-! ### The table's entries (R76, R77) -/

/-- Every byte has its entry (R41). -/
theorem getElem?_eq_readTable (t : Table) (i : Byte) : t[i.toNat]? = some (readTable t i) :=
  Vector.getElem?_eq_getElem i.isLt

theorem readTable_tableGen (p : Word) (i : Byte) :
    readTable (tableGen p) i = tableRounds p 8 (i.setWidth 64) := readTable_ofEntries (tableEntry p) i

theorem readTable_tableGen_xor (p : Word) (a c : Byte) :
    readTable (tableGen p) (a ^^^ c) = readTable (tableGen p) a ^^^ readTable (tableGen p) c := by
  simp only [readTable_tableGen, BitVec.setWidth_xor, tableRounds_xor]

/-- Entry 0 is the XOR of any entry with itself. -/
theorem readTable_tableGen_zero (p : Word) : readTable (tableGen p) 0 = 0 := by
  calc readTable (tableGen p) 0 = readTable (tableGen p) 0 ^^^ readTable (tableGen p) 0 := readTable_tableGen_xor p 0 0
    _ = 0 := BitVec.xor_self

/-- Eight shifts leave nothing of a byte. -/
theorem readTable_tableGen_zero_poly (i : Byte) : readTable (tableGen 0) i = 0 := by
  rw [readTable_tableGen, tableRounds_zero_poly]
  apply BitVec.eq_of_toNat_eq
  rw [BitVec.toNat_ushiftRight, Nat.shiftRight_eq_div_pow, BitVec.toNat_setWidth_of_le (by decide)]
  exact Nat.div_eq_of_lt i.isLt

/-- Settles O4: the model's rounds are the iterate, and its test of bit 0 is that of R76. -/
theorem tableEntriesAreEightRounds : Obligations.TableEntriesAreEightRounds := by
  unfold Obligations.TableEntriesAreEightRounds
  intro p i
  rw [getElem?_eq_readTable, readTable_tableGen, tableRounds_eq_iterate, tableRound_eq_ite]

/-- Settles O5: a round is linear, and without a polynomial it only shifts. -/
theorem tableGenProperties : Obligations.TableGenProperties := by
  unfold Obligations.TableGenProperties
  refine ⟨readTable_tableGen_zero, fun p => ?bit7, readTable_tableGen_xor, readTable_tableGen_zero_poly⟩
  case bit7 => exact (readTable_tableGen p 0x80).trans (tableRounds_of_bit_seven p)

/-! ### CONSTRUCT (R75, R79) -/

/-- Settles O6: the gate lets a block without a fault through, constructed or not. -/
theorem constructBuildsTableAndLoadsAcc : Obligations.ConstructBuildsTableAndLoadsAcc := by
  unfold Obligations.ConstructBuildsTableAndLoadsAcc
  intro s hf
  exact whenRunning_of_running hf

/-- Settles O10: what CONSTRUCT writes comes from the parameters alone, and CAUSE is 0 in every running state of the invariant. -/
theorem constructForgetsEarlierInput : Obligations.ConstructForgetsEarlierInput := by
  unfold Obligations.ConstructForgetsEarlierInput
  rintro s s' hf hf' ⟨hstatus, htable, -, -⟩ ⟨hstatus', -, -, -⟩ hp
  have hcause : s.cause = s'.cause := by rw [hstatus.cause_of_running hf, hstatus'.cause_of_running hf']
  refine ⟨_, _, constructBuildsTableAndLoadsAcc s hf, constructBuildsTableAndLoadsAcc s' hf',
    by rw [hp], by rw [hp], ?status, rfl, fun hc => (htable hc).symm⟩
  case status => simp only [State.statusPort, hf, hf', hcause]

end Sys2Proof.Machine
end

section
/-! PROOFS. The realisation with a read-only table (R80): its commands and its reset answer as the block's do, and nothing writes its
table. -/

namespace Sys2Proof.Machine

section
variable {s t : State}

/-! ### The same outcomes -/

/-- CONSTRUCT gives the block the table that the read-only one holds already; the other commands are the block's own. -/
theorem sameOutcome_romExec (h : SameToHost s t) (ht : RomHolds t) (i : Instr) :
    SameOutcomeToHost (exec i s) (romExec i t) := by
  cases i with
  | construct =>
    refine sameOutcome_whenRunning h ?_
    obtain ⟨_, _, _, rfl, -⟩ := sameToHost_iff.1 h
    exact sameToHost_iff.2 ⟨_, _, _, rfl, fun _ => ⟨rfl, ht.symm⟩⟩
  | update b => exact sameOutcome_exec h (.update b)
  | read => exact sameOutcome_exec h .read

/-- After a reset neither block is constructed, so the one table that stays and the free values of the other are out of sight. -/
theorem SameToHost.hardwareReset_romReset (h : SameToHost s t) : SameToHost s.hardwareReset (romReset t) := by
  obtain ⟨_, _, _, rfl, -⟩ := sameToHost_iff.1 h
  exact sameToHost_iff.2 ⟨_, _, _, rfl, fun hc => absurd hc (by simp)⟩

/-! ### The table stays -/

/-- Behind both gates there is the effect, or fault entry, which writes no table. -/
theorem RomHolds.of_gates {e : Host.Outcome State Fault Refusal} {w : CommandWord} (h : RomHolds s)
    (he : e = .next t → RomHolds t) (hx : whenRunning s (whenConstructed s w e) = .next t) : RomHolds t := by
  obtain ⟨-, hx⟩ := whenRunning_next hx
  obtain ⟨-, hx⟩ | ⟨-, rfl⟩ := whenConstructed_next hx
  · exact he hx
  · exact h

theorem RomHolds.of_romExec {i : Instr} (h : RomHolds s) (hx : romExec i s = .next t) : RomHolds t := by
  cases i with
  | construct =>
    obtain ⟨-, hx⟩ := whenRunning_next hx
    cases hx
    exact h
  | update b => exact h.of_gates (fun he => by cases he; exact h) hx
  | read => exact h.of_gates (fun he => by cases he; exact h) hx

theorem RomHolds.of_runWord {w : CommandWord} (h : RomHolds s) (hx : runWord romExec w s = .next t) : RomHolds t := by
  obtain ⟨i, -, hx⟩ | ⟨r, -, rfl⟩ := runWord_next hx
  · exact h.of_romExec hx
  · exact h

/-- Every answered step keeps the table: an idle one, a take, a reset (which leaves a read-only table as it is) and a word. -/
theorem RomHolds.of_romStep (h : RomHolds s) (hx : romStep s = .next t) : RomHolds t := by
  obtain ⟨-, -, rfl⟩ | ⟨ws, rest, -, -, rfl⟩ | ⟨ws, rest, -, -, rfl⟩ | ⟨w, rest, -, -, hw⟩ := stepWith_next hx
  · exact h
  · exact h
  · exact h
  · have haccept : RomHolds (s.accept w rest) := h
    exact haccept.of_runWord hw

end

/-- Settles O34: the commands and the resets of the two blocks keep states alike, so their steps do, and no step writes the read-only
table. -/
theorem readOnlyTableIsIndistinguishable : Obligations.ReadOnlyTableIsIndistinguishable := by
  unfold Obligations.ReadOnlyTableIsIndistinguishable
  intro s t h ht
  refine ⟨?outcomes, fun t' => ht.of_romStep⟩
  case outcomes =>
    exact sameOutcome_stepWith h (fun i w rest => sameOutcome_romExec (h.accept w rest) ht i)
      fun rest => (h.withInbox rest).hardwareReset_romReset

end Sys2Proof.Machine
end

section
/-! PROOFS. The fold (R86 to R91): the laws of one step over a generated table, the fold over a stream and over its own result, and
UPDATEs as the fold of their bytes. -/

namespace Sys2Proof.Machine

/-! ### The index (R41, R86) -/

/-- The model's index is the 64-bit value of R86, which is below 256. -/
theorem toNat_tableIndex (acc : Word) (b : Byte) :
    (tableIndex acc b).toNat = ((acc &&& 0xFF) ^^^ b.setWidth 64).toNat := by
  have hlow : (acc &&& 0xFF).toNat = acc.toNat % 2 ^ 8 := Nat.and_two_pow_sub_one_eq_mod acc.toNat 8
  rw [tableIndex, BitVec.toNat_xor, BitVec.toNat_xor, hlow, BitVec.toNat_setWidth,
    BitVec.toNat_setWidth_of_le (by decide)]

theorem tableIndex_xor (a₁ a₂ : Word) (b₁ b₂ : Byte) :
    tableIndex (a₁ ^^^ a₂) (b₁ ^^^ b₂) = tableIndex a₁ b₁ ^^^ tableIndex a₂ b₂ := by
  simp only [tableIndex, BitVec.setWidth_xor]
  ac_rfl

/-- The low byte of ACC selects entry 0. -/
theorem tableIndex_lowByte (acc : Word) : tableIndex acc (acc.setWidth 8) = 0 := BitVec.xor_self

/-- With ACC = 0 the byte is its own index. -/
theorem tableIndex_zero (b : Byte) : tableIndex 0 b = b := by simp [tableIndex]

/-! ### One step over TableGen(p) (R90) -/

/-- Step is linear: the shift is, the index is, and so is the table (R77). -/
theorem foldStep_xor (p a₁ a₂ : Word) (b₁ b₂ : Byte) :
    foldStep (tableGen p) (a₁ ^^^ a₂) (b₁ ^^^ b₂) = foldStep (tableGen p) a₁ b₁ ^^^ foldStep (tableGen p) a₂ b₂ := by
  simp only [foldStep, tableIndex_xor, readTable_tableGen_xor, BitVec.ushiftRight_xor_distrib]
  ac_rfl

theorem foldStep_lowByte (p acc : Word) : foldStep (tableGen p) acc (acc.setWidth 8) = acc >>> 8 := by
  rw [foldStep, tableIndex_lowByte, readTable_tableGen_zero]
  exact BitVec.xor_zero

theorem foldStep_zero (t : Table) (b : Byte) : foldStep t 0 b = readTable t b := by
  rw [foldStep, tableIndex_zero]
  exact BitVec.zero_xor

/-! ### The fold over a stream (R88, R89) -/

theorem foldBytes_append (t : Table) (acc : Word) (s₁ s₂ : List Byte) :
    foldBytes t acc (s₁ ++ s₂) = foldBytes t (foldBytes t acc s₁) s₂ := by
  induction s₁ generalizing acc with
  | nil => rfl
  | cons b bs ih => exact ih (foldStep t acc b)

theorem foldBytes_flatten (t : Table) (acc : Word) (parts : List (List Byte)) :
    foldBytes t acc parts.flatten = parts.foldl (foldBytes t) acc := by
  induction parts generalizing acc with
  | nil => rfl
  | cons part parts ih => rw [List.flatten_cons, foldBytes_append, ih, List.foldl_cons]

/-- Settles O13: by induction on the first part, and then on the list of parts. -/
theorem streamingEquivalence : Obligations.StreamingEquivalence := by
  unfold Obligations.StreamingEquivalence
  exact fun t acc => ⟨foldBytes_append t acc, foldBytes_flatten t acc⟩

/-! ### The fold over its own result (R90) -/

/-- The lowest byte of a word comes first, and those of the word shifted right by 8 follow. -/
theorem leBytes_succ_toNat (n : Nat) (acc : Word) :
    leBytes (n + 1) acc.toNat = acc.setWidth 8 :: leBytes n (acc >>> 8).toNat := by
  rw [leBytes, BitVec.ofNat_toNat, BitVec.toNat_ushiftRight, Nat.shiftRight_eq_div_pow]

/-- Each of ACC's own bytes is ACC's low byte when it is folded in, so that it only shifts. -/
theorem foldBytes_leBytes_self (p : Word) (n : Nat) (acc : Word) :
    foldBytes (tableGen p) acc (leBytes n acc.toNat) = acc >>> (8 * n) := by
  induction n generalizing acc with
  | zero => simp [leBytes, foldBytes]
  | succ n ih =>
    rw [leBytes_succ_toNat, foldBytes, foldStep_lowByte, ih, ← BitVec.shiftRight_add, Nat.mul_succ, Nat.add_comm]

/-- All 8 bytes shift the whole word out. -/
theorem foldBytes_leBytes_eight (p acc : Word) : foldBytes (tableGen p) acc (leBytes 8 acc.toNat) = 0 := by
  rw [foldBytes_leBytes_self]
  exact BitVec.ushiftRight_eq_zero (by decide)

/-- Settles O14: entry 0 is 0 and the table is linear, and a result's own bytes shift it out. -/
theorem foldCornerLaws : Obligations.FoldCornerLaws := by
  unfold Obligations.FoldCornerLaws
  intro p
  refine ⟨foldStep_lowByte p, ?zero, foldStep_zero (tableGen p), foldStep_xor p, foldBytes_leBytes_eight p,
    fun init bytes => ?ownResult⟩
  case zero => rw [foldStep_zero, readTable_tableGen_zero]
  case ownResult => rw [foldBytes_append, foldBytes_leBytes_eight]

/-! ### UPDATE (R85) -/

/-- A block that is ready folds the byte into ACC and writes nothing else (R85). -/
theorem exec_update_of_ready {s : State} (b : Byte) (hf : s.fault = false) (hc : s.constructed = true) :
    exec (.update b) s = .next (s.writeAcc (foldStep s.table s.acc b)) := by
  rw [exec, execUpdate, whenRunning_of_running hf, whenConstructed_of_constructed hc]

/-- Settles O7: both gates let a ready block through, and the index of R86 is the model's, which is in range. -/
theorem updateFoldsOneByte : Obligations.UpdateFoldsOneByte := by
  unfold Obligations.UpdateFoldsOneByte
  intro s b hf hc
  refine ⟨readTable s.table (tableIndex s.acc b), ?entry, exec_update_of_ready b hf hc⟩
  case entry => rw [← toNat_tableIndex, getElem?_eq_readTable]

/-! ### UPDATEs in order (R88, R91) -/

theorem offers_encodeAll_feed_cons (b : Byte) (bs : List Byte) (rest : List HostMove) :
    offers (encodeAll (feed (b :: bs))) ++ rest =
      .command (encode (.update b)) :: (offers (encodeAll (feed bs)) ++ rest) := rfl

/-- An UPDATE offered to a ready block is accepted and folded in by one step. -/
theorem step_of_update {s : State} {b : Byte} {rest : List HostMove} (hf : s.fault = false) (hc : s.constructed = true)
    (hi : s.inbox = .command (encode (.update b)) :: rest) :
    step s = .next ((s.accept (encode (.update b)) rest).writeAcc (foldStep s.table s.acc b)) := by
  rw [step_of_command hf hi, runWord_ok (decode_encode (.update b))]
  exact exec_update_of_ready b hf hc

/-- By induction on the bytes: the first step leaves the block ready, with the other UPDATEs offered. -/
theorem runSteps_of_updates {bytes : List Byte} {s : State} {rest : List HostMove} (hf : s.fault = false)
    (hc : s.constructed = true) (hi : s.inbox = offers (encodeAll (feed bytes)) ++ rest) :
    runSteps bytes.length s =
      .next { s with
        acc := foldBytes s.table s.acc bytes, inbox := rest, accepted := s.accepted ++ encodeAll (feed bytes) } := by
  induction bytes generalizing s with
  | nil =>
    obtain rfl : s.inbox = rest := hi
    simp [runSteps, foldBytes, feed, encodeAll]
  | cons b bs ih =>
    rw [offers_encodeAll_feed_cons] at hi
    have hrest := ih (s := (s.accept (encode (.update b)) _).writeAcc (foldStep s.table s.acc b)) hf hc rfl
    rw [List.length_cons, runSteps_succ_of_next (step_of_update hf hc hi), hrest]
    simp [State.accept, State.writeAcc, foldBytes, feed, encodeAll]

/-- Settles O15: Fold's equations are the model's, and the run folds the bytes one step at a time. -/
theorem updateSequenceFoldsInOrder : Obligations.UpdateSequenceFoldsInOrder := by
  unfold Obligations.UpdateSequenceFoldsInOrder
  exact ⟨fun _ _ => rfl, fun _ _ _ _ => rfl, fun _ _ _ => runSteps_of_updates⟩

end Sys2Proof.Machine
end

section
/-! PROOFS. The read-out of the accumulator: what READ writes and leaves unchanged (R11, R100), and the halves of a response (R103). -/

namespace Sys2Proof.Machine

/-! ### READ (R100) -/

/-- Settles O8: both gates let a ready block through, and emitting a response writes the response stream alone. -/
theorem readEmitsAcc : Obligations.ReadEmitsAcc := by
  unfold Obligations.ReadEmitsAcc
  intro s hf hc
  exact exec_read_of_ready hf hc

/-! ### The halves of a response (R103) -/

/-- The halves are adjacent and cover all 64 bits. -/
theorem responseHigh_append_responseLow (r : Word) : responseHigh r ++ responseLow r = r :=
  BitVec.extractLsb'_append_extractLsb' (w := 32) (len := 32)

/-- The quotient is below 2^32, so that HIGH's 32 bits cut nothing off. -/
theorem toNat_responseHigh (r : Word) : (responseHigh r).toNat = r.toNat / 2 ^ 32 := by
  have hfits : r.toNat / 2 ^ 32 < 2 ^ 32 := Nat.div_lt_of_lt_mul r.isLt
  rw [responseHigh, BitVec.extractLsb'_toNat, Nat.shiftRight_eq_div_pow, Nat.mod_eq_of_lt hfits]

theorem toNat_responseLow (r : Word) : (responseLow r).toNat = r.toNat % 2 ^ 32 := by
  rw [responseLow, BitVec.extractLsb'_toNat, Nat.shiftRight_zero]

/-- Settles O52: the two halves are the whole response, and each is read as its number. -/
theorem responseHalves : Obligations.ResponseHalves := by
  unfold Obligations.ResponseHalves
  exact fun r => ⟨responseHigh_append_responseLow r, toNat_responseHigh r, toNat_responseLow r⟩

end Sys2Proof.Machine
end

section
/-! PROOFS. Numbers as bytes and as digits: little-endian bytes have the number as their value (R64, R115), and hexadecimal digits read
back as it (R123). -/

namespace Sys2Proof.Machine

/-! ### Little-endian bytes -/

theorem length_leBytes (count v : Nat) : (leBytes count v).length = count := by
  simp [leBytes_eq_map_range]

/-- By induction on the count: the lowest byte is the remainder by 256, and the other bytes are those of the quotient. -/
theorem foldr_leBytes (count v : Nat) :
    (leBytes count v).foldr (fun b n => b.toNat + 256 * n) 0 = v % 256 ^ count := by
  induction count generalizing v with
  | zero => simp [leBytes, Nat.mod_one]
  | succ count ih =>
    rw [leBytes, List.foldr_cons, ih, BitVec.toNat_ofNat, pow_succ' 256 count]
    exact Nat.mod_mul.symm

theorem foldr_leBytes_of_lt {count v : Nat} (h : v < 256 ^ count) :
    (leBytes count v).foldr (fun b n => b.toNat + 256 * n) 0 = v := by
  rw [foldr_leBytes, Nat.mod_eq_of_lt h]

/-- Settles O44: the four bytes of a number have its remainder by 256^4 as their value. -/
theorem sizeBytesWrapAround : Obligations.SizeBytesWrapAround := by
  unfold Obligations.SizeBytesWrapAround
  exact fun size => ⟨length_leBytes 4 size, foldr_leBytes 4 size⟩

/-! ### Hexadecimal digits -/

theorem length_hexDigits (count v : Nat) : (hexDigits count v).length = count := by
  induction count with
  | zero => rfl
  | succ count ih => rw [hexDigits, List.length_cons, ih]

theorem hexDigit_mem : ∀ d < 16, hexDigit d ∈ "0123456789abcdef".toList := by decide

/-- Each digit stands at its own value's place. -/
theorem idxOf_hexDigit : ∀ d < 16, "0123456789abcdef".toList.idxOf (hexDigit d) = d := by decide

theorem mem_hexDigits {count v : Nat} {c : Char} (h : c ∈ hexDigits count v) : c ∈ "0123456789abcdef".toList := by
  induction count with
  | zero => cases h
  | succ count ih =>
    rw [hexDigits, List.mem_cons] at h
    obtain rfl | h := h
    · exact hexDigit_mem _ (Nat.mod_lt _ (by decide))
    · exact ih h

/-- By induction on the count, for any value `n` read before: the leading digit is worth 16^count. -/
theorem foldl_hexDigits (count v n : Nat) :
    (hexDigits count v).foldl (fun n c => 16 * n + "0123456789abcdef".toList.idxOf c) n =
      16 ^ count * n + v % 16 ^ count := by
  induction count generalizing n with
  | zero => simp [hexDigits, Nat.mod_one]
  | succ count ih =>
    have hdigit := idxOf_hexDigit (v / 16 ^ count % 16) (Nat.mod_lt _ (by decide))
    rw [hexDigits, List.foldl_cons, ih, hdigit, Nat.pow_succ, Nat.mod_mul]
    ring

/-- The leading digits are those of the quotient. -/
theorem hexDigits_add (m n v : Nat) : hexDigits (m + n) v = hexDigits m (v / 16 ^ n) ++ hexDigits n v := by
  induction m with
  | zero => simp [hexDigits]
  | succ m ih =>
    have hlead : v / 16 ^ n / 16 ^ m = v / 16 ^ (m + n) := by
      rw [Nat.div_div_eq_div_mul, ← Nat.pow_add, Nat.add_comm]
    rw [Nat.add_right_comm, hexDigits, hexDigits, ih, hlead, List.cons_append]

/-- The last digits are those of the remainder. -/
theorem hexDigits_mod (m n v : Nat) : hexDigits n (v % 16 ^ (n + m)) = hexDigits n v := by
  induction n generalizing m with
  | zero => rfl
  | succ n ih =>
    have htail : hexDigits n (v % 16 ^ (n + 1 + m)) = hexDigits n v := by rw [Nat.add_assoc, ih]
    have hlead : v % 16 ^ (n + 1 + m) / 16 ^ n % 16 = v / 16 ^ n % 16 := by
      rw [Nat.add_assoc, Nat.pow_add, Nat.mod_mul_right_div_self, Nat.add_comm 1 m, Nat.pow_succ', Nat.mod_mul_right_mod]
    rw [hexDigits, htail, hlead, hexDigits]

theorem responseText_eq_halves (r : Word) : responseText r = responseHighText r ++ responseLowText r := by
  rw [responseText, responseHighText, responseLowText, toNat_responseHigh, toNat_responseLow]
  calc hexDigits 16 r.toNat = hexDigits 8 (r.toNat / 2 ^ 32) ++ hexDigits 8 r.toNat := hexDigits_add 8 8 r.toNat
    _ = hexDigits 8 (r.toNat / 2 ^ 32) ++ hexDigits 8 (r.toNat % 2 ^ 32) := by
      rw [show (2 : Nat) ^ 32 = 16 ^ (8 + 0) from rfl, hexDigits_mod]

/-- Settles O53: 16 digits cover all 64 bits, 8 of them each half. -/
theorem responseTextIsExact : Obligations.ResponseTextIsExact := by
  unfold Obligations.ResponseTextIsExact
  intro r
  refine ⟨length_hexDigits 16 _, fun c => mem_hexDigits, ?value, responseText_eq_halves r, length_hexDigits 8 _,
    length_hexDigits 8 _⟩
  case value =>
    have hfits : r.toNat < 16 ^ 16 := r.isLt
    rw [responseText, foldl_hexDigits, Nat.mod_eq_of_lt hfits, Nat.mul_zero, Nat.zero_add]

end Sys2Proof.Machine
end

section
/-! PROOFS. A file's record and content (R111 to R118): the creation time in range and out of it, and which read makes either of them
fail. -/

namespace Sys2Proof.Machine

/-! ### The creation time (R112 to R114) -/

/-- Rounding the quotient of numerator and denominator toward zero is floor from 0 on and ceiling below. -/
theorem truncSeconds_eq (raw : Rat) : truncSeconds raw = if 0 ≤ raw then ⌊raw⌋ else ⌈raw⌉ := by
  split_ifs with h
  · rw [truncSeconds, Rat.floor_def', Int.tdiv_eq_ediv_of_nonneg (Rat.num_nonneg.2 h)]
  · have hnum : 0 ≤ -raw.num := Int.neg_nonneg.2 (Rat.num_neg.2 (not_le.1 h)).le
    rw [truncSeconds, Rat.ceil_def', ← Int.tdiv_eq_ediv_of_nonneg hnum, Int.neg_tdiv, neg_neg]

theorem fileTimeTicks_eq (raw : Rat) :
    fileTimeTicks raw = ((if 0 ≤ raw then ⌊raw⌋ else ⌈raw⌉) + 11644473600) * 10000000 := by
  rw [fileTimeTicks, truncSeconds_eq, epochDeltaSeconds]

theorem timestampInRange_iff {raw : Rat} :
    timestampInRange raw = true ↔ -11644473600 ≤ raw ∧ raw < 253402300800 := by
  simp [timestampInRange, epochDeltaSeconds, firstSecondOutOfRange]

/-- Truncation does not leave the range, since its limits are whole seconds and 0 lies between them. -/
theorem truncSeconds_mem_range {raw : Rat} (h : timestampInRange raw = true) :
    -11644473600 ≤ truncSeconds raw ∧ truncSeconds raw < 253402300800 := by
  obtain ⟨hlow, hhigh⟩ := timestampInRange_iff.1 h
  rw [truncSeconds_eq]
  split_ifs with hsign
  · have hfloor : 0 ≤ ⌊raw⌋ := Int.floor_nonneg.2 hsign
    exact ⟨by omega, Int.floor_lt.2 (by exact_mod_cast hhigh)⟩
  · have hceil : ⌈raw⌉ ≤ 0 := Int.ceil_le.2 (by exact_mod_cast (not_le.1 hsign).le)
    have hlow' : ((-11644473600 : Int) : Rat) ≤ ⌈raw⌉ := le_trans (by exact_mod_cast hlow) (Int.le_ceil raw)
    exact ⟨by exact_mod_cast hlow', by omega⟩

/-- The ticks of a time in range are no negative number and fit 8 bytes. -/
theorem fileTimeTicks_mem_range {raw : Rat} (h : timestampInRange raw = true) :
    0 ≤ fileTimeTicks raw ∧ fileTimeTicks raw ≤ 2650467743990000000 := by
  have hrange := truncSeconds_mem_range h
  rw [fileTimeTicks, epochDeltaSeconds]
  omega

theorem fileTimeBytes_of_inRange {raw : Rat} (h : timestampInRange raw = true) :
    fileTimeBytes raw = .ok (leBytes 8 (fileTimeTicks raw).toNat) := by
  simp [fileTimeBytes, h]

theorem fileTimeBytes_of_outOfRange {raw : Rat} (h : ¬ timestampInRange raw = true) :
    fileTimeBytes raw = .error (.timestampOutOfRange raw) := by
  simp [fileTimeBytes, h]

/-- Settles O40: the ticks are below 256^8, so their 8 bytes have them as their value. -/
theorem fileTimeBytesInRange : Obligations.FileTimeBytesInRange := by
  unfold Obligations.FileTimeBytesInRange
  intro raw hlow hhigh
  have hrange : timestampInRange raw = true := timestampInRange_iff.2 ⟨hlow, hhigh⟩
  obtain ⟨hnonneg, hmax⟩ := fileTimeTicks_mem_range hrange
  rw [← fileTimeTicks_eq]
  refine ⟨_, fileTimeBytes_of_inRange hrange, length_leBytes 8 _, hnonneg, hmax, ?value⟩
  case value => rw [foldr_leBytes_of_lt (by omega), Int.toNat_of_nonneg hnonneg]

/-! ### The record (R111, R113, R122) -/

theorem recordBytes_of_read {f : SourceFile} {raw : Rat} {size : Nat} (ht : f.creationTime = some raw)
    (hs : f.size = some size) :
    recordBytes f = (fileTimeBytes raw).map fun time => time ++ sizeBytes size ++ nameBytes f.name := by
  cases hb : fileTimeBytes raw <;> simp [recordBytes, ht, hs, hb, Except.map]

/-- A creation time or a size that cannot be read is an entry that cannot be read (R122). -/
theorem recordBytes_of_unreadable {f : SourceFile} (h : f.creationTime = none ∨ f.size = none) :
    recordBytes f = .error (.pathNotFound f.path) := by
  cases ht : f.creationTime with
  | none => simp [recordBytes, ht, HostError.ofIoFailure]
  | some raw =>
    have hs : f.size = none := h.resolve_left (by simp [ht])
    simp [recordBytes, ht, hs, HostError.ofIoFailure]

/-- Settles O41: the range check fails before any byte is made, and the record passes its error on. -/
theorem fileTimeOutOfRangeIsRefused : Obligations.FileTimeOutOfRangeIsRefused := by
  unfold Obligations.FileTimeOutOfRangeIsRefused
  intro raw hraw
  have hrange : ¬ timestampInRange raw = true := by
    rw [timestampInRange_iff, not_and_or, not_le, not_lt]
    exact hraw
  refine ⟨fileTimeBytes_of_outOfRange hrange, fun f size ht hs => ?record⟩
  case record => rw [recordBytes_of_read ht hs, fileTimeBytes_of_outOfRange hrange, Except.map]

/-- Settles O42: what is read and in range makes up the record. -/
theorem recordIsTimeThenSizeThenName : Obligations.RecordIsTimeThenSizeThenName := by
  unfold Obligations.RecordIsTimeThenSizeThenName
  intro f raw size ht hs hlow hhigh
  have htime := fileTimeBytes_of_inRange (timestampInRange_iff.2 ⟨hlow, hhigh⟩)
  refine ⟨_, htime, length_leBytes 8 _, length_leBytes 4 _, ?record⟩
  case record => rw [recordBytes_of_read ht hs, htime, Except.map]

/-! ### The content (R117, R118, R122) -/

/-- Settles O46: the read brings all the bytes asked for, or some, or has failed. -/
theorem contentIsWholeOrRefused : Obligations.ContentIsWholeOrRefused := by
  unfold Obligations.ContentIsWholeOrRefused
  intro f size hs
  refine ⟨fun content hc hlen => ?whole, fun content hc hlen => ?short, fun hc => ?failed⟩
  case whole => simp [contentBytes, hs, hc, contentRequest, Nat.not_lt.2 hlen]
  case short => simp only [contentBytes, hs, hc, contentRequest, hlen, if_true, HostError.ofIoFailure]
  case failed => simp only [contentBytes, hs, hc, contentRequest, HostError.ofIoFailure]

end Sys2Proof.Machine
end

section
/-! PROOFS. The file set and its order (R109, R110): what each entry is in it, and the model's sort as the library's insertion sort. -/

namespace Sys2Proof.Machine

/-! ### Lexicographic order (R110) -/

/-- `f` stands at or before `g` in the order of the code points of their names. -/
abbrev NameOrder (f g : SourceFile) : Prop := f.name.map Char.toNat ≤ g.name.map Char.toNat

theorem cons_le_cons_iff_of_nat {a b : Nat} {as bs : List Nat} : a :: as ≤ b :: bs ↔ a < b ∨ a = b ∧ as ≤ bs := by
  rw [← not_lt, ← not_lt, List.cons_lt_cons_iff]
  obtain h | rfl | h := lt_trichotomy a b
  · simp [h, h.not_gt, h.ne']
  · simp
  · simp [h, h.not_gt, h.ne']

/-- By recursion on both names: the first code points decide, or, where they are equal, the rest does. -/
theorem nameLe_iff (as bs : Text) : nameLe as bs = true ↔ as.map Char.toNat ≤ bs.map Char.toNat := by
  induction as generalizing bs with
  | nil => simp [nameLe, ← not_lt]
  | cons a as ih =>
    cases bs with
    | nil => simp [nameLe]
    | cons b bs =>
      rw [List.map_cons, List.map_cons, cons_le_cons_iff_of_nat]
      by_cases hab : a = b
      · simp [nameLe, hab, ih]
      · have hne : a.toNat ≠ b.toNat := fun h => hab (Char.toNat_inj.1 h)
        simp [nameLe, hab, hne]

theorem insertByName_eq_orderedInsert (f : SourceFile) (fs : List SourceFile) :
    insertByName f fs = fs.orderedInsert NameOrder f := by
  induction fs with
  | nil => rfl
  | cons g gs ih => simp only [insertByName, nameLe_iff, ih, List.orderedInsert_cons]

theorem sortByName_eq_insertionSort (fs : List SourceFile) : sortByName fs = fs.insertionSort NameOrder := by
  induction fs with
  | nil => rfl
  | cons f fs ih => rw [sortByName, ih, insertByName_eq_orderedInsert, List.insertionSort_cons]

theorem sortByName_perm (fs : List SourceFile) : (sortByName fs).Perm fs := by
  rw [sortByName_eq_insertionSort]
  exact List.perm_insertionSort NameOrder fs

@[simp] theorem mem_sortByName {f : SourceFile} {fs : List SourceFile} : f ∈ sortByName fs ↔ f ∈ fs :=
  (sortByName_perm fs).mem_iff

theorem sortByName_pairwise (fs : List SourceFile) : (sortByName fs).Pairwise NameOrder := by
  have htotal : Std.Total NameOrder := ⟨fun _ _ => le_total _ _⟩
  have htrans : IsTrans SourceFile NameOrder := ⟨fun _ _ _ => le_trans⟩
  rw [sortByName_eq_insertionSort]
  exact List.pairwise_insertionSort NameOrder fs

/-- Settles O45: the order is linear, so insertion sort sorts by it. -/
theorem filesAreSortedByName : Obligations.FilesAreSortedByName := by
  unfold Obligations.FilesAreSortedByName
  exact fun fs => ⟨sortByName_perm fs, sortByName_pairwise fs⟩

/-! ### The entries (R109, R122) -/

section
variable {hp : HostParams} {tree : HostTree}

theorem fileOfEntry_of_unreadable {e : DirEntry} (h : e.kind = .unreadable) :
    fileOfEntry hp tree e = .error (.aborted (.pathNotFound (tree.entryPath hp e.name))) := by
  simp [fileOfEntry, h, HostError.ofIoFailure]

/-- Only a regular file with a Unicode name joins the file set, and its path is its entry's. -/
theorem fileOfEntry_path {e : DirEntry} {f : SourceFile} (h : fileOfEntry hp tree e = .ok (some f)) :
    f.path = tree.entryPath hp (some f.name) := by
  cases hk : e.kind with
  | regularFile =>
    cases hn : e.name with
    | none => simp [fileOfEntry, hk, hn] at h
    | some name =>
      cases ht : e.creationTime.toRaw with
      | error r => simp [fileOfEntry, hk, hn, ht] at h
      | ok time =>
        simp only [fileOfEntry, hk, hn, ht] at h
        cases h
        rfl
  | directory => simp [fileOfEntry, hk] at h
  | symbolicLink => simp [fileOfEntry, hk] at h
  | specialFile => simp [fileOfEntry, hk] at h
  | unreadable => simp [fileOfEntry, hk] at h

/-- Entries give a file set only if the first one and the others do. -/
theorem filesAmong_cons_ok {e : DirEntry} {es : List DirEntry} {fs : List SourceFile}
    (h : filesAmong hp tree (e :: es) = .ok fs) :
    ∃ first others, fileOfEntry hp tree e = .ok first ∧ filesAmong hp tree es = .ok others ∧ fs = first.toList ++ others := by
  cases he : fileOfEntry hp tree e with
  | error r => simp [filesAmong, he] at h
  | ok first =>
    cases hes : filesAmong hp tree es with
    | error r => simp [filesAmong, he, hes] at h
    | ok others =>
      simp only [filesAmong, he, hes] at h
      cases h
      exact ⟨first, others, rfl, rfl, rfl⟩

/-- The first entry that ends the computation decides how it ends. -/
theorem filesAmong_of_error {before after : List DirEntry} {e : DirEntry} {fs : List SourceFile} {why : HostStop}
    (hb : filesAmong hp tree before = .ok fs) (he : fileOfEntry hp tree e = .error why) :
    filesAmong hp tree (before ++ e :: after) = .error why := by
  induction before generalizing fs with
  | nil => simp [filesAmong, he]
  | cons b bs ih =>
    obtain ⟨first, others, hfirst, hothers, -⟩ := filesAmong_cons_ok hb
    simp [filesAmong, hfirst, ih hothers]

theorem filesAmong_path {es : List DirEntry} {fs : List SourceFile} (h : filesAmong hp tree es = .ok fs) :
    ∀ f ∈ fs, f.path = tree.entryPath hp (some f.name) := by
  induction es generalizing fs with
  | nil =>
    cases h
    simp
  | cons e es ih =>
    obtain ⟨first, others, hfirst, hothers, rfl⟩ := filesAmong_cons_ok h
    intro f hf
    obtain hf | hf := List.mem_append.1 hf
    · obtain rfl : first = some f := Option.mem_toList.1 hf
      exact fileOfEntry_path hfirst
    · exact ih hothers f hf

theorem fileSet_of_unlisted (h : tree.entries = none) :
    fileSet hp tree = .error (.aborted (.pathNotFound (tree.dirPath hp))) := by
  simp [fileSet, h, HostError.ofIoFailure]

theorem fileSet_of_listed {es : List DirEntry} (h : tree.entries = some es) :
    fileSet hp tree = filesAmong hp tree es := by
  simp [fileSet, h]

theorem fileSet_path {fs : List SourceFile} (h : fileSet hp tree = .ok fs) :
    ∀ f ∈ fs, f.path = tree.entryPath hp (some f.name) := by
  cases hl : tree.entries with
  | none => simp [fileSet_of_unlisted hl] at h
  | some es => exact filesAmong_path (fileSet_of_listed hl ▸ h)

end

end Sys2Proof.Machine
end

section
/-! PROOFS. The computation (R107, R108, R117 to R122): how it ends at each check, and what it has issued by then. -/

namespace Sys2Proof.Machine

/-! ### The stages of a computation (R107, R120) -/

section
variable {hp : HostParams} {tree : HostTree} {fs : List SourceFile} {bytes : List Byte}

theorem compute_of_root (h : tree.root ≠ .directory) :
    compute hp tree = ⟨[], .stopped (.aborted (.pathNotFound (.root tree.rootPath)))⟩ := by
  simp [compute, checkPaths, h]

theorem compute_of_metadataDir (hr : tree.root = .directory) (h : tree.metadataDir ≠ .directory) :
    compute hp tree = ⟨[], .stopped (.aborted (.pathNotFound (.metadataDir tree.rootPath hp.metadataDir)))⟩ := by
  simp [compute, checkPaths, hr, h, HostTree.dirPath]

theorem checkPaths_of_directories (hr : tree.root = .directory) (hm : tree.metadataDir = .directory) :
    checkPaths hp tree = none := by
  simp [checkPaths, hr, hm]

theorem compute_of_no_fileSet {why : HostStop} (hpaths : checkPaths hp tree = none) (h : fileSet hp tree = .error why) :
    compute hp tree = ⟨[], .stopped why⟩ := by
  simp [compute, hpaths, h]

theorem compute_of_stream_error {e : HostError} (hpaths : checkPaths hp tree = none) (hfs : fileSet hp tree = .ok fs)
    (h : streamBytes hp (sortByName fs) = (bytes, some e)) :
    compute hp tree = ⟨.construct :: feed bytes, .stopped (.aborted e)⟩ := by
  simp [compute, hpaths, hfs, h]

theorem compute_of_stream (hpaths : checkPaths hp tree = none) (hfs : fileSet hp tree = .ok fs)
    (h : streamBytes hp (sortByName fs) = (bytes, none)) :
    compute hp tree = ⟨.construct :: feed bytes ++ [.read], .complete⟩ := by
  simp [compute, hpaths, hfs, h]

/-- Everything a computation can be: stopped before any command, stopped in the stream, or complete. -/
theorem compute_cases (hp : HostParams) (tree : HostTree) :
    (∃ why, compute hp tree = ⟨[], .stopped why⟩) ∨
    (∃ bytes e, compute hp tree = ⟨.construct :: feed bytes, .stopped (.aborted e)⟩) ∨
    (∃ fs bytes, fileSet hp tree = .ok fs ∧ streamBytes hp (sortByName fs) = (bytes, none) ∧
      compute hp tree = ⟨.construct :: feed bytes ++ [.read], .complete⟩) := by
  cases hc : checkPaths hp tree with
  | some e => exact .inl ⟨.aborted e, by simp [compute, hc]⟩
  | none =>
    cases hfs : fileSet hp tree with
    | error why => exact .inl ⟨why, compute_of_no_fileSet hc hfs⟩
    | ok fs =>
      rcases hs : streamBytes hp (sortByName fs) with ⟨bytes, _ | e⟩
      · exact .inr (.inr ⟨fs, bytes, rfl, hs, compute_of_stream hc hfs hs⟩)
      · exact .inr (.inl ⟨bytes, e, compute_of_stream_error hc hfs hs⟩)

theorem compute_complete (h : (compute hp tree).ended = .complete) :
    ∃ fs bytes, fileSet hp tree = .ok fs ∧ streamBytes hp (sortByName fs) = (bytes, none) ∧
      compute hp tree = ⟨.construct :: feed bytes ++ [.read], .complete⟩ := by
  obtain ⟨why, hc⟩ | ⟨bytes, e, hc⟩ | hc := compute_cases hp tree
  · simp [hc] at h
  · simp [hc] at h
  · exact hc

theorem compute_complete_of_fileSet (hfs : fileSet hp tree = .ok fs) (h : (compute hp tree).ended = .complete) :
    ∃ bytes, streamBytes hp (sortByName fs) = (bytes, none) ∧
      compute hp tree = ⟨.construct :: feed bytes ++ [.read], .complete⟩ := by
  obtain ⟨fs', bytes, hfs', hs, hc⟩ := compute_complete h
  obtain rfl : fs = fs' := Except.ok.inj (hfs.symm.trans hfs')
  exact ⟨bytes, hs, hc⟩

end

/-- Settles O47: the checks come first, the root's before the subdirectory's. -/
theorem pathsAreCheckedFirst : Obligations.PathsAreCheckedFirst := by
  unfold Obligations.PathsAreCheckedFirst
  exact fun hp tree => ⟨compute_of_root, compute_of_metadataDir⟩

/-- Settles O43: each failure is mapped where it is met: at the paths, at the listing, at the first such entry, or in the record. -/
theorem ioFailuresAreHostErrors : Obligations.IoFailuresAreHostErrors := by
  unfold Obligations.IoFailuresAreHostErrors
  refine ⟨fun hp tree hr => compute_of_root (by simp [hr]), fun hp tree hr h => ?directory,
    fun hp tree before after e fs hr hm hl hb hk => ?entry, fun f => recordBytes_of_unreadable,
    fun hp tree fs => fileSet_path⟩
  case directory =>
    obtain hm | ⟨hm, hl⟩ := h
    · exact compute_of_metadataDir hr (by simp [hm])
    · exact compute_of_no_fileSet (checkPaths_of_directories hr hm) (fileSet_of_unlisted hl)
  case entry =>
    apply compute_of_no_fileSet (checkPaths_of_directories hr hm)
    rw [fileSet_of_listed hl, filesAmong_of_error hb (fileOfEntry_of_unreadable hk)]
    rfl

/-- Settles O49: only a complete computation has READ behind its bytes. -/
theorem abortedComputationHasNoResult : Obligations.AbortedComputationHasNoResult := by
  unfold Obligations.AbortedComputationHasNoResult
  intro hp tree h
  obtain ⟨why, hc⟩ | ⟨bytes, e, hc⟩ | ⟨fs, bytes, -, -, hc⟩ := compute_cases hp tree
  · simp [hc, HostRun.fingerprint]
  · simp [hc, HostRun.fingerprint, feed]
  · simp [hc] at h

/-! ### The stages of the stream (R108, R117, R119) -/

section
variable {hp : HostParams} {fs : List SourceFile} {bytes : List Byte}

theorem streamBytes_of_record_error {e : HostError} (h : passBytes recordBytes fs = (bytes, some e)) :
    streamBytes hp fs = (bytes, some e) := by
  simp [streamBytes, h]

theorem streamBytes_of_missing (h : passBytes recordBytes fs = (bytes, none)) (hm : designatedMissing hp fs = true) :
    streamBytes hp fs = (bytes, some .requiredFileMissing) := by
  simp [streamBytes, h, hm]

theorem streamBytes_of_contents {contents : List Byte} {e : Option HostError}
    (h : passBytes recordBytes fs = (bytes, none)) (hm : designatedMissing hp fs = false)
    (hc : passBytes contentBytes (fs.filter fun f => isDesignated hp f.name) = (contents, e)) :
    streamBytes hp fs = (bytes ++ contents, e) := by
  simp [streamBytes, h, hm, hc]

/-- A stream without an error is all records, then all designated contents, with no designated file missing. -/
theorem streamBytes_none (h : streamBytes hp fs = (bytes, none)) :
    ∃ records contents, passBytes recordBytes fs = (records, none) ∧ designatedMissing hp fs = false ∧
      passBytes contentBytes (fs.filter fun f => isDesignated hp f.name) = (contents, none) ∧
      bytes = records ++ contents := by
  rcases hr : passBytes recordBytes fs with ⟨records, _ | e⟩
  · cases hm : designatedMissing hp fs with
    | true => simp [streamBytes_of_missing hr hm] at h
    | false =>
      rw [streamBytes_of_contents hr hm rfl, Prod.mk.injEq] at h
      obtain ⟨hbytes, hnone⟩ := h
      exact ⟨records, _, rfl, rfl, Prod.ext rfl hnone, hbytes.symm⟩
  · simp [streamBytes_of_record_error hr] at h

theorem designatedMissing_iff :
    designatedMissing hp fs = true ↔
      (∀ f ∈ fs, f.name ≠ hp.designatedFirst) ∨ (∀ f ∈ fs, f.name ≠ hp.designatedSecond) := by
  simp [designatedMissing, Decidable.imp_iff_not_or]

/-- Sorting adds and drops no file (R110). -/
theorem designatedMissing_sortByName : designatedMissing hp (sortByName fs) = designatedMissing hp fs := by
  rw [Bool.eq_iff_iff, designatedMissing_iff, designatedMissing_iff]
  simp only [mem_sortByName]

/-- A record is fed where its creation time is read and in range and its size is read (R111, R113). -/
theorem passBytes_records_of_readable
    (h : ∀ f ∈ fs, ∃ raw size, f.creationTime = some raw ∧ timestampInRange raw = true ∧ f.size = some size) :
    ∃ records, passBytes recordBytes fs = (records, none) := by
  induction fs with
  | nil => exact ⟨[], rfl⟩
  | cons f fs ih =>
    obtain ⟨⟨raw, size, ht, hrange, hsize⟩, hfs⟩ := List.forall_mem_cons.1 h
    obtain ⟨records, hrecords⟩ := ih hfs
    exact ⟨_, by rw [passBytes, recordBytes_of_read ht hsize, fileTimeBytes_of_inRange hrange, Except.map, hrecords]⟩

end

/-- Settles O48: no error in the stream means that every record and every designated content was fed. -/
theorem completeComputationShape : Obligations.CompleteComputationShape := by
  unfold Obligations.CompleteComputationShape
  intro hp tree h
  obtain ⟨fs, bytes, hfs, hs, hc⟩ := compute_complete h
  obtain ⟨_, _, hrecords, -, hcontents, rfl⟩ := streamBytes_none hs
  obtain ⟨records, hr, rfl⟩ := passBytes_none hrecords
  obtain ⟨contents, hd, rfl⟩ := passBytes_none hcontents
  exact ⟨fs, records, contents, hfs, hr, hd, by rw [hc]; rfl⟩

/-- Settles O50: a complete computation misses no designated file, and records without an error lead to the check for it. -/
theorem missingDesignatedFileAborts : Obligations.MissingDesignatedFileAborts := by
  unfold Obligations.MissingDesignatedFileAborts
  intro hp tree fs hr hm hfs habsent
  have hmissing : designatedMissing hp (sortByName fs) = true := by
    rw [designatedMissing_sortByName, designatedMissing_iff]
    exact habsent
  refine ⟨fun hcomplete => ?incomplete, fun hreadable => ?required⟩
  case incomplete =>
    obtain ⟨bytes, hs, -⟩ := compute_complete_of_fileSet hfs hcomplete
    obtain ⟨-, -, -, hpresent, -⟩ := streamBytes_none hs
    simp [hmissing] at hpresent
  case required =>
    obtain ⟨records, hrecords⟩ : ∃ records, passBytes recordBytes (sortByName fs) = (records, none) :=
      passBytes_records_of_readable (by simpa using hreadable)
    rw [compute_of_stream_error (checkPaths_of_directories hr hm) hfs (streamBytes_of_missing hrecords hmissing)]

/-- Settles O51: each of the three errors ends the stream at its stage, and the passes say what was fed before it. -/
theorem firstErrorEndsTheComputation : Obligations.FirstErrorEndsTheComputation := by
  unfold Obligations.FirstErrorEndsTheComputation
  intro hp tree fs hr hm hfs
  have hpaths := checkPaths_of_directories (hp := hp) hr hm
  refine ⟨fun before after f records e hsort hbefore he => ?record,
    fun records hrecords => ⟨fun habsent => ?missing, ?content⟩⟩
  case record =>
    refine compute_of_stream_error hpaths hfs (streamBytes_of_record_error ?_)
    rw [hsort, passBytes_of_error hbefore he]
  case missing =>
    refine compute_of_stream_error hpaths hfs (streamBytes_of_missing (passBytes_of_ok hrecords) ?_)
    rw [designatedMissing_sortByName, designatedMissing_iff]
    exact habsent
  case content =>
    rintro ⟨f₁, hmem₁, hname₁⟩ ⟨f₂, hmem₂, hname₂⟩ before after f contents e hsort hbefore he
    refine compute_of_stream_error hpaths hfs (streamBytes_of_contents (passBytes_of_ok hrecords) ?_ ?_)
    · rw [designatedMissing_sortByName, ← Bool.not_eq_true, designatedMissing_iff, not_or]
      exact ⟨fun habsent => habsent f₁ hmem₁ hname₁, fun habsent => habsent f₂ hmem₂ hname₂⟩
    · rw [hsort, passBytes_of_error hbefore he]

end Sys2Proof.Machine
end

section
/-! PROOFS. The computation on the block (R88, R107, R124): CONSTRUCT, the fold of the stream, READ. -/

namespace Sys2Proof.Machine

section
variable {s : State} {rest : List HostMove}

/-- A command offered to a block that is not faulted is accepted and has its effect (R15, R59). -/
theorem step_of_encode {i : Instr} (hf : s.fault = false) (hi : s.inbox = .command (encode i) :: rest) :
    step s = exec i (s.accept (encode i) rest) := by
  rw [step_of_command hf hi, runWord_ok (decode_encode i)]

/-- The state that CONSTRUCT leaves behind when it is accepted with `rest` still to come (R75). -/
def State.afterConstruct (s : State) (rest : List HostMove) : State :=
  (((s.accept (encode .construct) rest).writeTable (tableGen s.params.pPoly)).writeAcc s.params.pInit).setConstructed

theorem step_of_construct (hf : s.fault = false) (hi : s.inbox = .command (encode .construct) :: rest) :
    step s = .next (s.afterConstruct rest) := by
  rw [step_of_encode hf hi]
  exact whenRunning_of_running hf

theorem step_of_read (hf : s.fault = false) (hc : s.constructed = true)
    (hi : s.inbox = .command (encode .read) :: rest) :
    step s = .next ((s.accept (encode .read) rest).emitResponse s.acc) := by
  rw [step_of_encode hf hi]
  exact exec_read_of_ready hf hc

/-- UPDATEs and then READ, offered to a block that is ready, end well with the fold as one more response. -/
theorem runSteps_of_updates_read {bytes : List Byte} (hf : s.fault = false) (hc : s.constructed = true)
    (hi : s.inbox = offers (encodeAll (feed bytes)) ++ [.command (encode .read)]) :
    ∃ t, runSteps (bytes.length + 1) s = .next t ∧ t.endedWell = true ∧
      t.responses = s.responses ++ [foldBytes s.table s.acc bytes] := by
  refine ⟨_, (runSteps_add_of_next (runSteps_of_updates hf hc hi)).trans (runSteps_succ_of_next (step_of_read hf hc rfl)),
    ?well, rfl⟩
  case well => simp [State.endedWell, hf]

/-- With CONSTRUCT before them the fold starts from P_INIT over TableGen(P_POLY), whatever ACC and TABLE held before. -/
theorem runSteps_of_computation {bytes : List Byte} (hf : s.fault = false)
    (hi : s.inbox = offers (encodeAll (.construct :: feed bytes ++ [.read]))) :
    ∃ t, runSteps (bytes.length + 1 + 1) s = .next t ∧ t.endedWell = true ∧
      t.responses = s.responses ++ [foldBytes (tableGen s.params.pPoly) s.params.pInit bytes] := by
  have hmoves : s.inbox =
      .command (encode .construct) :: (offers (encodeAll (feed bytes)) ++ [.command (encode .read)]) := by
    simp [hi, offers, encodeAll]
  rw [runSteps_succ_of_next (step_of_construct hf hmoves)]
  exact runSteps_of_updates_read (s := s.afterConstruct _) hf rfl rfl

end

/-- Settles O35: the moves of a complete computation are CONSTRUCT, the stream's bytes and READ, whose response is the last one. -/
theorem fingerprintIsTheFoldOfTheStream : Obligations.FingerprintIsTheFoldOfTheStream := by
  unfold Obligations.FingerprintIsTheFoldOfTheStream
  intro hp tree fs s hfs hcomplete hf hi
  obtain ⟨bytes, hs, hc⟩ := compute_complete_of_fileSet hfs hcomplete
  have hlength : (compute hp tree).moves.length = bytes.length + 1 + 1 := by
    simp [hc, HostRun.moves, offers, encodeAll, feed]
  obtain ⟨t, hrun, hwell, hresponses⟩ := runSteps_of_computation (bytes := bytes) hf (by rw [hi, hc, HostRun.moves])
  refine ⟨t, by rw [hlength, hrun], hwell, by simp [hresponses], ?fingerprint⟩
  case fingerprint => simp [hc, HostRun.fingerprint, hresponses, hs]

end Sys2Proof.Machine
end

section
/-! PROOFS. Faults: which accepted words enter fault (R132 to R135), that a halted block accepts no command (R136), and that hardware
reset alone leaves a fault (R137). -/

namespace Sys2Proof.Machine

section
variable {s : State} {w : CommandWord} {rest : List HostMove}

/-! ### Fault entry (R132 to R135) -/

/-- R132's list of reserved words, on the fields. -/
theorem isReserved_of_fields
    (h : (opField w = 0x0 ∨ 4 ≤ (opField w).toNat) ∨ rsvField w ≠ 0 ∨
      ((opField w = 0x1 ∨ opField w = 0x3) ∧ dataField w ≠ 0)) : isReserved w = true := by
  cases hd : decode w with
  | error r => exact isReserved_of_error hd
  | ok i =>
    obtain ⟨hrsv, ⟨hop, hdata, -⟩ | ⟨hop, -⟩ | ⟨hop, hdata, -⟩⟩ := decode_ok hd
    · simp [hrsv, hop, hdata] at h
    · simp [hrsv, hop] at h
    · simp [hrsv, hop, hdata] at h

theorem exec_update_before_construct (b : Byte) (hf : s.fault = false) (hc : s.constructed = false) :
    exec (.update b) s = .next (s.raiseFault .notConstructed (encode (.update b))) := by
  rw [exec, execUpdate, whenRunning_of_running hf, whenConstructed_of_not hc]

theorem exec_read_before_construct (hf : s.fault = false) (hc : s.constructed = false) :
    exec .read s = .next (s.raiseFault .notConstructed (encode .read)) := by
  rw [exec, execRead, whenRunning_of_running hf, whenConstructed_of_not hc]

/-- The converse of `StepCase.fault`: a running block accepts a word that raises a fault, and fault entry is the whole effect. -/
theorem step_of_raises {c : Cause} (hf : s.fault = false) (hi : s.inbox = .command w :: rest)
    (hw : Raises s.constructed w c) : step s = .next ((s.accept w rest).raiseFault c w) := by
  obtain ⟨hr, rfl⟩ | ⟨⟨b, hd⟩ | hd, hc, rfl⟩ := hw
  · obtain ⟨r, hd⟩ := isReserved_iff.1 hr
    rw [step_of_command hf hi, runWord_reserved hd]
  · obtain rfl := eq_encode_of_decode hd
    rw [step_of_encode hf hi]
    exact exec_update_before_construct b hf hc
  · obtain rfl := eq_encode_of_decode hd
    rw [step_of_encode hf hi]
    exact exec_read_before_construct hf hc

end

/-- Settles O11: both kinds of word raise NotConstructed, and the step of CONSTRUCT raises nothing. -/
theorem commandsBeforeConstructFault : Obligations.CommandsBeforeConstructFault := by
  unfold Obligations.CommandsBeforeConstructFault
  intro s w rest hf hc hi
  refine ⟨fun hw => ?raises, ?construct⟩
  case raises =>
    have hdecode : (∃ b, decode w = .ok (.update b)) ∨ decode w = .ok .read := by
      obtain hupdate | rfl := hw
      · exact .inl ⟨_, decode_eq_ok_iff.2 (eq_encode_update_iff.2 ⟨hupdate, rfl⟩)⟩
      · exact .inr (decode_encode .read)
    exact step_of_raises hf hi (.inr ⟨hdecode, hc, rfl⟩)
  case construct =>
    rintro rfl
    exact ⟨_, step_of_construct hf hi, hf, rfl, rfl⟩

/-- Settles O12: the field conditions make the word reserved, which raises ReservedCommand whatever CONSTRUCTED is. -/
theorem reservedWordsFault : Obligations.ReservedWordsFault := by
  unfold Obligations.ReservedWordsFault
  intro s w rest hf hi hw
  exact step_of_raises hf hi (.inl ⟨isReserved_of_fields hw, rfl⟩)

/-! ### The halted block (R136) -/

theorem exec_of_halted {s : State} (hf : s.fault = true) (i : Instr) : exec i s = .fault (.halted s.cause) := by
  cases i with
  | construct | update | read => exact whenRunning_of_halted hf

/-- Moves that are all commands are the offers of their words. -/
theorem eq_offers_of_forall_command {moves : List HostMove} (h : ∀ m ∈ moves, ∃ w, m = .command w) :
    ∃ ws, moves = offers ws := by
  have hrange : moves ∈ Set.range (List.map HostMove.command) := by
    rw [Set.range_list_map]
    intro m hm
    obtain ⟨w, rfl⟩ := h m hm
    exact ⟨w, rfl⟩
  obtain ⟨ws, rfl⟩ := hrange
  exact ⟨ws, rfl⟩

/-- A halted block that is offered nothing but commands is stuck (I8). -/
theorem step_of_halted_offers {s : State} {ws : List CommandWord} (hf : s.fault = true) (hi : s.inbox = offers ws) :
    step s = .fault (.halted s.cause) := by
  have hstuck : haltedMove (offers ws) = .stuck := by simpa [haltedMove] using haltedMove_offers ws []
  simp [step, stepWith, hf, stepHalted, hi, hstuck]

/-- Settles O18: every command's gate is shut, and a halted block passes over the commands it is offered. -/
theorem haltedBlockAcceptsNoCommand : Obligations.HaltedBlockAcceptsNoCommand := by
  unfold Obligations.HaltedBlockAcceptsNoCommand
  intro s hf
  refine ⟨exec_of_halted hf, fun hcommands => ?stuck, by simp [State.cmdReady, hf], by simp [State.endedWell, hf]⟩
  case stuck =>
    obtain ⟨ws, hi⟩ := eq_offers_of_forall_command hcommands
    exact step_of_halted_offers hf hi

/-! ### The way out of a fault (R137) -/

/-- A halted block answers takes and resets only. -/
theorem StepCase.of_halted {s t : State} (h : StepCase s t) (hf : s.fault = true) (hr : ¬ HostResets s) :
    ∃ rest, t = (s.withInbox rest).deliverResponse := by
  cases h with
  | @take rest => exact ⟨rest, rfl⟩
  | reset hreset => exact absurd hreset hr
  | idle hrun | construct hrun | update hrun | read hrun | fault hrun => simp [hf] at hrun

/-- Settles O21: what is no reset is a take, which writes the channels only; a reset is answered also behind commands. -/
theorem onlyResetLeavesAFault : Obligations.OnlyResetLeavesAFault := by
  unfold Obligations.OnlyResetLeavesAFault
  intro s hf
  refine ⟨fun hr t h => ?stays, fun ws rest hi => ?leaves⟩
  case stays =>
    obtain ⟨rest, rfl⟩ := (stepCase_of_step h).of_halted hf hr
    exact ⟨hf, rfl, rfl, rfl, rfl, rfl, rfl⟩
  case leaves => exact ⟨_, stepWith_of_reset hi (.inl hf), rfl, rfl, rfl, rfl⟩

end Sys2Proof.Machine
end

section
/-! PROOFS. Progress of a block without a fault (R30, R49, R154): every word is accepted by one step, and every other move is answered. -/

namespace Sys2Proof.Machine

/-- A word that a running block is offered has its command's effect or enters fault, and either way it is accepted. -/
theorem step_accepts_command {s : State} {w : CommandWord} {rest : List HostMove} (hf : s.fault = false)
    (hi : s.inbox = .command w :: rest) :
    ∃ t, step s = .next t ∧ t.accepted = s.accepted ++ [w] ∧ t.inbox = rest := by
  have of_raises {c : Cause} (hw : Raises s.constructed w c) :
      ∃ t, step s = .next t ∧ t.accepted = s.accepted ++ [w] ∧ t.inbox = rest :=
    ⟨_, step_of_raises hf hi hw, rfl, rfl⟩
  cases hd : decode w with
  | error r => exact of_raises (.inl ⟨isReserved_iff.2 ⟨r, hd⟩, rfl⟩)
  | ok i =>
    obtain rfl : w = encode i := eq_encode_of_decode hd
    cases i with
    | construct => exact ⟨_, step_of_construct hf hi, rfl, rfl⟩
    | update b =>
      cases hc : s.constructed with
      | true => exact ⟨_, step_of_update hf hc hi, rfl, rfl⟩
      | false => exact of_raises (.inr ⟨.inl ⟨b, hd⟩, hc, rfl⟩)
    | read =>
      cases hc : s.constructed with
      | true => exact ⟨_, step_of_read hf hc hi, rfl, rfl⟩
      | false => exact of_raises (.inr ⟨.inr hd, hc, rfl⟩)

/-- With no fault no move of the host's, and no lack of one, stops the block. -/
theorem step_answers_of_running {s : State} (hf : s.fault = false) : ∃ t, step s = .next t := by
  cases hi : s.inbox with
  | nil => exact ⟨s, idleBlockWaits s hf hi⟩
  | cons m rest =>
    cases m with
    | takeResponse => exact ⟨_, stepWith_of_take (ws := []) hi (.inr rfl)⟩
    | reset => exact ⟨_, stepWith_of_reset (ws := []) hi (.inr rfl)⟩
    | command w =>
      obtain ⟨t, hstep, -, -⟩ := step_accepts_command hf hi
      exact ⟨t, hstep⟩

/-- Settles O17: by the host's next move, and for a command by what its word decodes to. -/
theorem runningBlockAlwaysSteps : Obligations.RunningBlockAlwaysSteps := by
  unfold Obligations.RunningBlockAlwaysSteps
  intro s hf
  exact ⟨step_answers_of_running hf, fun _ _ => step_accepts_command hf⟩

end Sys2Proof.Machine
end
